-- ==== Sys2Proof/Word.lean ====
section
/-! DEFINITION. The widths of the block's registers and fields (spec/00_scope.md R10, R11: every register and
field is an unsigned integer of a stated width). -/

namespace Sys2Proof

/-- One byte: a frame byte, a BDM opcode, an 8-bit target register (R60, R97). -/
abbrev Byte := BitVec 8

/-- A 16-bit value: a target address, a 16-bit target register, the sync length (R25, R32, R64). -/
abbrev Half := BitVec 16

/-- A 32-bit value: a word of the waveform engine's shift register (R8 REG_WIDTH, R160). -/
abbrev Word := BitVec 32

end Sys2Proof
end

