-- ==== Sys2Proof/Syntax.lean ====
section
/-! DEFINITION. What the block is asked to do: the 29 BDM commands and the 21 host commands of
spec/opcode_table.json (spec/00_scope.md R2), and the requests that reach the block's two interfaces. -/

namespace Sys2Proof

/-- The 29 BDM physical-layer commands by name (spec/30_encoding.md R94). -/
inductive BdmOp where
  | ackEnable
  | ackDisabled
  | background
  | go
  | trace1
  | taggo
  | readA
  | readCcr
  | readPc
  | readHx
  | readSp
  | readNext
  | readNextWs
  | writeA
  | writeCcr
  | writePc
  | writeHx
  | writeSp
  | writeNext
  | writeNextWs
  | readStatus
  | writeControl
  | readByte
  | readByteWs
  | readLast
  | writeByte
  | writeByteWs
  | readBkpt
  | writeBkpt
  deriving DecidableEq, Repr

/-- The 21 host commands by name (spec/30_encoding.md R101). -/
inductive HostOp where
  | setTarget
  | setVdd
  | getBdmStatus
  | getCapabilities
  | setOptions
  | controlPins
  | connect
  | setSpeed
  | getSpeed
  | readStatusReg
  | writeControlReg
  | targetReset
  | targetStep
  | targetGo
  | targetHalt
  | writeReg
  | readReg
  | writeDreg
  | readDreg
  | writeMem
  | readMem
  deriving DecidableEq, Repr

/-- One call of the engine interface's wrapper `bdmCmd(op, a1, a2)` (spec/41_bdm_commands.md R180), as
SOFT_RESET_SEQUENCE lists them (spec/42_dispatcher.md R249). An argument may be wider than its field: R180
truncates it. -/
structure BdmCall where
  op : BdmOp
  args : List Nat
  deriving DecidableEq, Repr

/-- The two modes a software reset is asked for (spec/42_dispatcher.md R248 check 6). -/
inductive ResetMode where
  | special
  | normal
  deriving DecidableEq, Repr

/-- One constructor per row of spec/opcode_table.json. The first 29 are BDM commands, reached at the engine
interface; the last 21 are host commands, reached by a command frame. An operand is exactly as wide as its field
(spec/30_encoding.md R92, R99). -/
inductive Instr where
  /-- ACK_ENABLE, 0xD5, format B0 (R184). -/
  | ackEnable
  /-- ACK_DISABLED, 0xD6, format B0 (R185). -/
  | ackDisabled
  /-- BACKGROUND, 0x90, format B0 (R186). -/
  | background
  /-- GO, 0x08, format B0 (R187). -/
  | go
  /-- TRACE1, 0x10, format B0 (R188). -/
  | trace1
  /-- TAGGO, 0x18, format B0 (R189). -/
  | taggo
  /-- READ_A, 0x68, format B1 (R190). -/
  | readA
  /-- READ_CCR, 0x69, format B1 (R191). -/
  | readCcr
  /-- READ_PC, 0x6B, format B2 (R192). -/
  | readPc
  /-- READ_HX, 0x6C, format B2 (R193). -/
  | readHx
  /-- READ_SP, 0x6F, format B2 (R194). -/
  | readSp
  /-- READ_NEXT, 0x70, format B1 (R195). -/
  | readNext
  /-- READ_NEXT_WS, 0x71, format B2 (R196). -/
  | readNextWs
  /-- WRITE_A, 0x48, format B3 (R197). -/
  | writeA (d : Byte)
  /-- WRITE_CCR, 0x49, format B3 (R198). -/
  | writeCcr (d : Byte)
  /-- WRITE_PC, 0x4B, format B5 (R199). -/
  | writePc (v : Half)
  /-- WRITE_HX, 0x4C, format B5 (R200). -/
  | writeHx (v : Half)
  /-- WRITE_SP, 0x4F, format B5 (R201). -/
  | writeSp (v : Half)
  /-- WRITE_NEXT, 0x50, format B3 (R202). -/
  | writeNext (d : Byte)
  /-- WRITE_NEXT_WS, 0x51, format B4 (R203). -/
  | writeNextWs (d : Byte)
  /-- READ_STATUS, 0xE4, format B1 (R204). -/
  | readStatus
  /-- WRITE_CONTROL, 0xC4, format B3 (R205). -/
  | writeControl (d : Byte)
  /-- READ_BYTE, 0xE0, format B6 (R206). -/
  | readByte (a : Half)
  /-- READ_BYTE_WS, 0xE1, format B7 (R207). -/
  | readByteWs (a : Half)
  /-- READ_LAST, 0xE8, format B2 (R208). -/
  | readLast
  /-- WRITE_BYTE, 0xC0, format B8 (R209). -/
  | writeByte (a : Half) (d : Byte)
  /-- WRITE_BYTE_WS, 0xC1, format B9 (R210). -/
  | writeByteWs (a : Half) (d : Byte)
  /-- READ_BKPT, 0xE2, format B2 (R211). -/
  | readBkpt
  /-- WRITE_BKPT, 0xC2, format B5 (R212). -/
  | writeBkpt (v : Half)
  /-- SET_TARGET, 0x01, format H0 (R236). -/
  | setTarget
  /-- SET_VDD, 0x02, format HB (R237). -/
  | setVdd (vdd : Byte)
  /-- GET_BDM_STATUS, 0x04, format H0 (R238). -/
  | getBdmStatus
  /-- GET_CAPABILITIES, 0x05, format H0 (R239). -/
  | getCapabilities
  /-- SET_OPTIONS, 0x06, format HOPT (R240). `params` are ALL the parameter bytes of the frame; the meaning checks their number and takes the first OPTIONS_SIZE. -/
  | setOptions (params : List Byte)
  /-- CONTROL_PINS, 0x08, format H0 (R241). -/
  | controlPins
  /-- CONNECT, 0x0F, format H0 (R242). -/
  | connect
  /-- SET_SPEED, 0x10, format HW (R243). -/
  | setSpeed (h : Half)
  /-- GET_SPEED, 0x11, format H0 (R244). -/
  | getSpeed
  /-- READ_STATUS_REG, 0x14, format H0 (R245). -/
  | readStatusReg
  /-- WRITE_CONTROL_REG, 0x15, format HV (R246). -/
  | writeControlReg (v : Word)
  /-- TARGET_RESET, 0x16, format HB (R247). -/
  | targetReset (m : Byte)
  /-- TARGET_STEP, 0x17, format H0 (R250). -/
  | targetStep
  /-- TARGET_GO, 0x18, format H0 (R251). -/
  | targetGo
  /-- TARGET_HALT, 0x19, format H0 (R252). -/
  | targetHalt
  /-- WRITE_REG, 0x1A, format HIDV (R253). -/
  | writeReg (id : Half) (v : Word)
  /-- READ_REG, 0x1B, format HID (R254). -/
  | readReg (id : Half)
  /-- WRITE_DREG, 0x1E, format HIDV (R256). -/
  | writeDreg (id : Half) (v : Word)
  /-- READ_DREG, 0x1F, format HID (R257). -/
  | readDreg (id : Half)
  /-- WRITE_MEM, 0x20, format HMEM (R258). `data` are the bytes p[4..3+count] that the frame holds; fewer than `count` of them is R260 check 2. -/
  | writeMem (mode : Byte) (count : Byte) (addr : Half) (data : List Byte)
  /-- READ_MEM, 0x21, format HMEM (R259). -/
  | readMem (mode : Byte) (count : Byte) (addr : Half)
  deriving DecidableEq, Repr

/-- What the outside asks of the block, one request at a time.
* `frame`: the host hands over one complete command frame (spec/42_dispatcher.md R230, spec/60_exceptions.md R346).
* `bdm`: a caller of the engine interface asks for one BDM command, given as the bytes of its transmit word, opcode
  first (spec/41_bdm_commands.md R180; spec/30_encoding.md R91).
* `synchronize`, `transaction`: a caller of the engine starts a bare engine operation, which the sequencer then runs
  one transition a step (spec/40_engine_core.md R131, R140, R151). -/
inductive Input where
  | frame (bytes : List Byte)
  | bdm (bytes : List Byte)
  | synchronize
  | transaction (op : Byte) (P nt nr : Nat)
  deriving DecidableEq, Repr

end Sys2Proof
end

