-- ==== Sys2Proof/Config.lean ====
section
/-! DEFINITION. What the spec leaves OPEN and what agents outside the block choose. Every constant here is opaque:
no proof can see its value, so a claim holds whatever it is. The parameters the spec gives a value or a default
(spec/00_scope.md R8, R9) stand in Sys2Proof/Machine/Params.lean. -/

namespace Sys2Proof.Config

/-- T_SYNC_MAX, the bound of a WE_SYNC wait (R9: OPEN; no rule uses its value, R164). -/
opaque tSyncMax : Nat

/-- T_TXN_MAX, the bound of a WE_SHIFT wait (R9: OPEN; no rule uses its value, R164). -/
opaque tTxnMax : Nat

/-- SOFT_RESET_SEQUENCE(mode), the BDM commands a software reset sends (R9, R249, D24: OPEN). -/
opaque softResetSequence : ResetMode → List BdmCall

/-- CAPABILITY_VECTOR (R9, D30: OPEN, 16 bits). -/
opaque capabilityVector : Half

/-- VERSION_TRIPLE (R9, D30: OPEN, 3 bytes). -/
opaque versionTriple : Byte × Byte × Byte

/-- OPTIONS_SIZE is `optionsTail + 1` (R9, D31: OPEN). The image holds at least the Vdd byte that SET_VDD writes
(DEDUCED, notes/assumptions/9.md). -/
opaque optionsTail : Nat

/-- VDD_OFFSET, the offset of the Vdd selection inside the options image (R9, R31, D31: OPEN). -/
opaque vddOffset : Fin (optionsTail + 1)

/-- The bytes of OPTIONS_RESET_IMAGE (R9, R31, D31: OPEN). -/
opaque optionsResetByte : Nat → Byte

/-- FREE VALUE. The waveform engine's `n`-th answer that no scripted answer gives: `some w` is Done(w), `none` is
Timeout (spec/40_engine_core.md R164: a draw; both always possible). -/
opaque weAnswer : Nat → Option Word

/-- FREE VALUE. The board's power-sense input at the `n`-th draw (spec/42_dispatcher.md R238, D33: a draw). -/
opaque powerPresent : Nat → Bool

/-- FREE VALUE. A payload byte of an error response (spec/42_dispatcher.md R234: any value, a draw). -/
opaque payloadByte : Nat → Byte

/-- FREE VALUES. What `E.cont` (`true` is TXN), `E.op`, `E.txWord`, `E.txBits`, `E.rxBits` and `E.rxWord` hold once an engine
operation is over (spec/10_state.md R26: any value; the bit counts within 0..32). -/
opaque restingCont : Nat → Bool

@[inherit_doc restingCont]
opaque restingOp : Nat → Byte

@[inherit_doc restingCont]
opaque restingTxWord : Nat → Word

@[inherit_doc restingCont]
opaque restingTxBits : Nat → Fin 33

@[inherit_doc restingCont]
opaque restingRxBits : Nat → Fin 33

@[inherit_doc restingCont]
opaque restingRxWord : Nat → Word

end Sys2Proof.Config
end

