-- ==== Sys2Proof/Machine/Params.lean ====
section
/-! DEFINITION. The parameters the spec fixes (spec/00_scope.md R8) and the ones it gives a default (R9), which the
model takes at that default (notes/assumptions/8.md). -/

namespace Sys2Proof.Machine

/-- REG_WIDTH (R8): the width of the WE shift register, the largest transmit and receive bit count. -/
def regWidth : Nat := 32

/-- SYNC_TARGET_CYCLES (R8): target clock cycles in the measured sync pulse. -/
def syncTargetCycles : Rat := 128

/-- SYNC_TICK_CYCLES (R8): reference cycles per sync counter tick. -/
def syncTickCycles : Rat := 2

/-- SYNC_PERIOD_MICROS (R8): the period of one reference cycle in microseconds. -/
def syncPeriodMicros : Rat := 1 / 2

/-- SYNC_FREQ_HZ (R8): the reference frequency of the sync program. -/
def syncFreqHz : Rat := 2000000

/-- HOST_TICK_FACTOR (R8): the factor between the block's tick basis and the host's. -/
def hostTickFactor : Nat := 60

/-- MEM_MODE_NORMAL (R8): the only memory-access mode byte that is supported. -/
def memModeNormal : Byte := 0x00

/-- MAX_COMMAND_SIZE (R9, default 254). -/
def maxCommandSize : Nat := 254

/-- MAX_RESPONSE_SIZE (R9, default 254). -/
def maxResponseSize : Nat := 254

/-- WE_INPUT_CLOCK_HZ (R9, default 125 MHz). -/
def weInputClockHz : Rat := 125000000

/-- DIV_MIN (R9, default 1). -/
def divMin : Rat := 1

/-- DIV_MAX (R9, default 65536). -/
def divMax : Rat := 65536

/-- DIV_FRAC_BITS (R9, default 8). -/
def divFracBits : Nat := 8

/-- SPEED_SHIFT (R9, default 4). -/
def speedShift : Nat := 4

/-- POWER_PRESENT_MASK (R9, default 0x0040). -/
def powerPresentMask : Half := 0x0040

/-- OPTIONS_SIZE (R9: OPEN). -/
def optionsSize : Nat := Config.optionsTail + 1

/-- OPTIONS_RESET_IMAGE (R9, R31: OPEN), OPTIONS_SIZE bytes. -/
def optionsResetImage : List Byte := (List.range optionsSize).map Config.optionsResetByte

end Sys2Proof.Machine
end

