-- ==== Sys2Proof/WellFormed.lean ====
section
/-! DEFINITION. Which instructions an encoding can carry (spec/30_encoding.md R97, R99). Every operand of fixed width is
legal at every value; only the two operands of variable length are bounded, by MAX_COMMAND_SIZE. -/

namespace Sys2Proof

/-- SET_OPTIONS (R240): the parameter bytes fit a frame of at most MAX_COMMAND_SIZE bytes. -/
def wfSetOptions (params : List Byte) : Bool := 2 + params.length ≤ Machine.maxCommandSize

/-- WRITE_MEM (R258): the data bytes are the first `count` of those in the frame, and they fit it. -/
def wfWriteMem (count : Byte) (data : List Byte) : Bool :=
  data.length ≤ count.toNat && 6 + data.length ≤ Machine.maxCommandSize

/-- Well-formed instructions. -/
def Instr.wf : Instr → Bool
  | .setOptions params => wfSetOptions params
  | .writeMem _ count _ data => wfWriteMem count data
  | .ackEnable => true | .ackDisabled => true | .background => true | .go => true | .trace1 => true | .taggo => true
  | .readA => true | .readCcr => true | .readPc => true | .readHx => true | .readSp => true
  | .readNext => true | .readNextWs => true
  | .writeA _ => true | .writeCcr _ => true | .writePc _ => true | .writeHx _ => true | .writeSp _ => true
  | .writeNext _ => true | .writeNextWs _ => true | .readStatus => true | .writeControl _ => true
  | .readByte _ => true | .readByteWs _ => true | .readLast => true
  | .writeByte _ _ => true | .writeByteWs _ _ => true | .readBkpt => true | .writeBkpt _ => true
  | .setTarget => true | .setVdd _ => true | .getBdmStatus => true | .getCapabilities => true | .controlPins => true
  | .connect => true | .setSpeed _ => true | .getSpeed => true | .readStatusReg => true | .writeControlReg _ => true
  | .targetReset _ => true | .targetStep => true | .targetGo => true | .targetHalt => true
  | .writeReg _ _ => true | .readReg _ => true | .writeDreg _ _ => true | .readDreg _ => true | .readMem _ _ _ => true

end Sys2Proof
end

