-- ==== Sys2Proof/Decode.lean ====
section
/-! DEFINITION. The two encodings of spec/30_encoding.md: BDM transmit words (R90 to R96) and host command frames (R97 to
R103). Decoding is total and rejects by name; the encoder after it is written from the same tables. -/

namespace Sys2Proof

/-! Byte order -/

/-- The two bytes of a 16-bit field, most significant first (R60, R62). -/
def halfBytes (v : Half) : List Byte := [v.extractLsb' 8 8, v.extractLsb' 0 8]

/-- The four bytes of a 32-bit field, most significant first (R62). -/
def wordBytes (v : Word) : List Byte :=
  [v.extractLsb' 24 8, v.extractLsb' 16 8, v.extractLsb' 8 8, v.extractLsb' 0 8]

/-- Byte `i` of a byte sequence; the decoders read no byte past the end. -/
def byteAt (p : List Byte) (i : Nat) : Byte := p.getD i 0

/-- `be16(p, i)` (R12, R100). -/
def be16 (p : List Byte) (i : Nat) : Half := byteAt p i ++ byteAt p (i + 1)

/-- `be32(p, i)` (R12, R100). -/
def be32 (p : List Byte) (i : Nat) : Word :=
  byteAt p i ++ (byteAt p (i + 1) ++ (byteAt p (i + 2) ++ byteAt p (i + 3)))

/-! The BDM opcode map (R94) and formats (R92) -/

/-- The opcode byte of a BDM command (R94). -/
def BdmOp.code : BdmOp → Byte
  | .ackEnable => 0xD5
  | .ackDisabled => 0xD6
  | .background => 0x90
  | .go => 0x08
  | .trace1 => 0x10
  | .taggo => 0x18
  | .readA => 0x68
  | .readCcr => 0x69
  | .readPc => 0x6B
  | .readHx => 0x6C
  | .readSp => 0x6F
  | .readNext => 0x70
  | .readNextWs => 0x71
  | .writeA => 0x48
  | .writeCcr => 0x49
  | .writePc => 0x4B
  | .writeHx => 0x4C
  | .writeSp => 0x4F
  | .writeNext => 0x50
  | .writeNextWs => 0x51
  | .readStatus => 0xE4
  | .writeControl => 0xC4
  | .readByte => 0xE0
  | .readByteWs => 0xE1
  | .readLast => 0xE8
  | .writeByte => 0xC0
  | .writeByteWs => 0xC1
  | .readBkpt => 0xE2
  | .writeBkpt => 0xC2

/-- Every BDM command, in the order of spec/opcode_table.json. -/
def BdmOp.all : List BdmOp :=
  [.ackEnable, .ackDisabled, .background, .go, .trace1, .taggo, .readA, .readCcr,
   .readPc, .readHx, .readSp, .readNext, .readNextWs, .writeA, .writeCcr, .writePc,
   .writeHx, .writeSp, .writeNext, .writeNextWs, .readStatus, .writeControl, .readByte, .readByteWs,
   .readLast, .writeByte, .writeByteWs, .readBkpt, .writeBkpt]

/-- The BDM command a whole opcode byte selects (R94, R95). -/
def bdmOpOf (b : Byte) : Option BdmOp := BdmOp.all.find? fun o => o.code == b

/-- The transaction formats (R92). -/
inductive BdmFormat where
  | b0 | b1 | b2 | b3 | b4 | b5 | b6 | b7 | b8 | b9
  deriving DecidableEq, Repr

/-- The transmit bit count of a format (R92). -/
def BdmFormat.txBits : BdmFormat → Nat
  | .b0 => 8 | .b1 => 8 | .b2 => 8 | .b3 => 16 | .b4 => 16 | .b5 => 24 | .b6 => 24 | .b7 => 24 | .b8 => 32 | .b9 => 32

/-- The receive bit count of a format (R92). -/
def BdmFormat.rxBits : BdmFormat → Nat
  | .b0 => 0 | .b1 => 8 | .b2 => 16 | .b3 => 0 | .b4 => 8 | .b5 => 0 | .b6 => 8 | .b7 => 16 | .b8 => 0 | .b9 => 8

/-- The widths of a format's parameter fields, in the order they are sent (R92). -/
def BdmFormat.fields : BdmFormat → List Nat
  | .b0 => [] | .b1 => [] | .b2 => [] | .b3 => [8] | .b4 => [8] | .b5 => [16] | .b6 => [16] | .b7 => [16]
  | .b8 => [16, 8] | .b9 => [16, 8]

/-- The format of a BDM command (R94, R181). -/
def BdmOp.format : BdmOp → BdmFormat
  | .ackEnable => .b0
  | .ackDisabled => .b0
  | .background => .b0
  | .go => .b0
  | .trace1 => .b0
  | .taggo => .b0
  | .readA => .b1
  | .readCcr => .b1
  | .readPc => .b2
  | .readHx => .b2
  | .readSp => .b2
  | .readNext => .b1
  | .readNextWs => .b2
  | .writeA => .b3
  | .writeCcr => .b3
  | .writePc => .b5
  | .writeHx => .b5
  | .writeSp => .b5
  | .writeNext => .b3
  | .writeNextWs => .b4
  | .readStatus => .b1
  | .writeControl => .b3
  | .readByte => .b6
  | .readByteWs => .b7
  | .readLast => .b2
  | .writeByte => .b8
  | .writeByteWs => .b9
  | .readBkpt => .b2
  | .writeBkpt => .b5

/-- How many parameter bytes follow the opcode byte of a BDM command (R91, R96). -/
def BdmOp.paramBytes (o : BdmOp) : Nat := (o.format.txBits - 8) / 8

/-! The host opcode map (R101) and frame layouts (R99) -/

/-- HOST_OPCODE (R9, R101): the opcode byte of a host command, at its default. -/
def HostOp.code : HostOp → Byte
  | .setTarget => 0x01
  | .setVdd => 0x02
  | .getBdmStatus => 0x04
  | .getCapabilities => 0x05
  | .setOptions => 0x06
  | .controlPins => 0x08
  | .connect => 0x0F
  | .setSpeed => 0x10
  | .getSpeed => 0x11
  | .readStatusReg => 0x14
  | .writeControlReg => 0x15
  | .targetReset => 0x16
  | .targetStep => 0x17
  | .targetGo => 0x18
  | .targetHalt => 0x19
  | .writeReg => 0x1A
  | .readReg => 0x1B
  | .writeDreg => 0x1E
  | .readDreg => 0x1F
  | .writeMem => 0x20
  | .readMem => 0x21

/-- Every host command, in the order of spec/opcode_table.json. -/
def HostOp.all : List HostOp :=
  [.setTarget, .setVdd, .getBdmStatus, .getCapabilities, .setOptions, .controlPins, .connect,
   .setSpeed, .getSpeed, .readStatusReg, .writeControlReg, .targetReset, .targetStep, .targetGo,
   .targetHalt, .writeReg, .readReg, .writeDreg, .readDreg, .writeMem, .readMem]

/-- The host command a whole opcode byte selects (R102, R232). -/
def hostOpOf (b : Byte) : Option HostOp := HostOp.all.find? fun o => o.code == b

/-- minNp (R99): the least number of parameter bytes the frame decoder accepts. SET_OPTIONS' own minimum, OPTIONS_SIZE, is
checked by its meaning (R240, R323 level 4), with the same answer. -/
def HostOp.minNp : HostOp → Nat
  | .setTarget => 0
  | .setVdd => 1
  | .getBdmStatus => 0
  | .getCapabilities => 0
  | .setOptions => 0
  | .controlPins => 0
  | .connect => 0
  | .setSpeed => 2
  | .getSpeed => 0
  | .readStatusReg => 0
  | .writeControlReg => 4
  | .targetReset => 1
  | .targetStep => 0
  | .targetGo => 0
  | .targetHalt => 0
  | .writeReg => 6
  | .readReg => 2
  | .writeDreg => 6
  | .readDreg => 2
  | .writeMem => 4
  | .readMem => 4

/-- payloadLen (R99) of a command whose payload length does not depend on the frame. READ_MEM's is its count; a READ_MEM
refused before its first transaction has none (R234, R259), which is the 0 here. -/
def HostOp.payloadLen : HostOp → Nat
  | .setTarget => 0
  | .setVdd => 0
  | .getBdmStatus => 2
  | .getCapabilities => 7
  | .setOptions => 0
  | .controlPins => 2
  | .connect => 0
  | .setSpeed => 0
  | .getSpeed => 2
  | .readStatusReg => 4
  | .writeControlReg => 0
  | .targetReset => 0
  | .targetStep => 0
  | .targetGo => 0
  | .targetHalt => 0
  | .writeReg => 0
  | .readReg => 4
  | .writeDreg => 0
  | .readDreg => 4
  | .writeMem => 0
  | .readMem => 0

/-! Decoding -/

/-- Why bytes are no instruction. -/
inductive DecodeError where
  /-- The frame's length is not what its size byte says (R346). -/
  | hostDutyBroken
  /-- commandSize below 2 or above MAX_COMMAND_SIZE (R231). -/
  | badSize
  /-- Not a host opcode (R102, R232). -/
  | unknownOpcode (op : Byte)
  /-- Fewer parameter bytes than the command's minimum (R233). -/
  | shortParams (op : HostOp)
  /-- Not a BDM opcode (R95, R182); a word of no bytes is given as 0x00 (notes/assumptions/20.md). -/
  | unknownBdm (op : Byte)
  /-- A BDM word with fewer bytes than its row has (R96, R181). -/
  | truncatedBdm (op : BdmOp)
  deriving DecidableEq, Repr

/-- The BDM instruction with opcode `o` and parameter bytes `p` (R92). -/
def bdmInstr (o : BdmOp) (p : List Byte) : Instr :=
  match o with
  | .ackEnable => .ackEnable
  | .ackDisabled => .ackDisabled
  | .background => .background
  | .go => .go
  | .trace1 => .trace1
  | .taggo => .taggo
  | .readA => .readA
  | .readCcr => .readCcr
  | .readPc => .readPc
  | .readHx => .readHx
  | .readSp => .readSp
  | .readNext => .readNext
  | .readNextWs => .readNextWs
  | .writeA => .writeA (byteAt p 0)
  | .writeCcr => .writeCcr (byteAt p 0)
  | .writePc => .writePc (be16 p 0)
  | .writeHx => .writeHx (be16 p 0)
  | .writeSp => .writeSp (be16 p 0)
  | .writeNext => .writeNext (byteAt p 0)
  | .writeNextWs => .writeNextWs (byteAt p 0)
  | .readStatus => .readStatus
  | .writeControl => .writeControl (byteAt p 0)
  | .readByte => .readByte (be16 p 0)
  | .readByteWs => .readByteWs (be16 p 0)
  | .readLast => .readLast
  | .writeByte => .writeByte (be16 p 0) (byteAt p 2)
  | .writeByteWs => .writeByteWs (be16 p 0) (byteAt p 2)
  | .readBkpt => .readBkpt
  | .writeBkpt => .writeBkpt (be16 p 0)

/-- Decode a BDM word: the opcode byte selects the row, which gives the length (R96). The bytes after it are handed
back. DESIGN CHOICE (notes/assumptions/20.md): the spec's `bdmCmd` always has an opcode (R95, R182, R314); a word of no bytes,
which only the model's request format can write, is read as the byte 0x00, which is no BDM command. -/
def decodeBdm (bytes : List Byte) : Except DecodeError (Instr × List Byte) :=
  match bytes with
  | [] => .error (.unknownBdm 0)
  | b :: p =>
    match bdmOpOf b with
    | none => .error (.unknownBdm b)
    | some o => if p.length < o.paramBytes then .error (.truncatedBdm o) else .ok (bdmInstr o p, p.drop o.paramBytes)

/-- The host instruction with opcode `o` and parameter bytes `p` (R99). Parameter bytes past those the layout names are
ignored (R233). -/
def hostInstr (o : HostOp) (p : List Byte) : Instr :=
  match o with
  | .setTarget => .setTarget
  | .setVdd => .setVdd (byteAt p 0)
  | .getBdmStatus => .getBdmStatus
  | .getCapabilities => .getCapabilities
  | .setOptions => .setOptions p
  | .controlPins => .controlPins
  | .connect => .connect
  | .setSpeed => .setSpeed (be16 p 0)
  | .getSpeed => .getSpeed
  | .readStatusReg => .readStatusReg
  | .writeControlReg => .writeControlReg (be32 p 0)
  | .targetReset => .targetReset (byteAt p 0)
  | .targetStep => .targetStep
  | .targetGo => .targetGo
  | .targetHalt => .targetHalt
  | .writeReg => .writeReg (be16 p 0) (be32 p 2)
  | .readReg => .readReg (be16 p 0)
  | .writeDreg => .writeDreg (be16 p 0) (be32 p 2)
  | .readDreg => .readDreg (be16 p 0)
  | .writeMem => .writeMem (byteAt p 0) (byteAt p 1) (be16 p 2) ((p.drop 4).take (byteAt p 1).toNat)
  | .readMem => .readMem (byteAt p 0) (byteAt p 1) (be16 p 2)

/-- Decode a command frame, in the order of the checks of R230: the host's duty (R346), the size (R231), the opcode (R232),
the number of parameter bytes (R233). -/
def decodeFrame (bytes : List Byte) : Except DecodeError Instr :=
  match bytes with
  | [] => .error .hostDutyBroken
  | sz :: rest =>
    if bytes.length ≠ max sz.toNat 1 then .error .hostDutyBroken
    else if sz.toNat < 2 ∨ Machine.maxCommandSize < sz.toNat then .error .badSize
    else
      match rest with
      | [] => .error .badSize
      | op :: p =>
        match hostOpOf op with
        | none => .error (.unknownOpcode op)
        | some o => if p.length < o.minNp then .error (.shortParams o) else .ok (hostInstr o p)

/-- The instruction a request asks for, if it asks for one. -/
def decodeInput : Input → Option Instr
  | .frame bytes => (decodeFrame bytes).toOption
  | .bdm bytes => (decodeBdm bytes).toOption.map Prod.fst
  | .synchronize => none
  | .transaction _ _ _ _ => none

/-! Encoding -/

/-- The BDM command an instruction is, if it is one. -/
def Instr.bdmOp : Instr → Option BdmOp
  | .ackEnable => some .ackEnable
  | .ackDisabled => some .ackDisabled
  | .background => some .background
  | .go => some .go
  | .trace1 => some .trace1
  | .taggo => some .taggo
  | .readA => some .readA
  | .readCcr => some .readCcr
  | .readPc => some .readPc
  | .readHx => some .readHx
  | .readSp => some .readSp
  | .readNext => some .readNext
  | .readNextWs => some .readNextWs
  | .writeA _ => some .writeA
  | .writeCcr _ => some .writeCcr
  | .writePc _ => some .writePc
  | .writeHx _ => some .writeHx
  | .writeSp _ => some .writeSp
  | .writeNext _ => some .writeNext
  | .writeNextWs _ => some .writeNextWs
  | .readStatus => some .readStatus
  | .writeControl _ => some .writeControl
  | .readByte _ => some .readByte
  | .readByteWs _ => some .readByteWs
  | .readLast => some .readLast
  | .writeByte _ _ => some .writeByte
  | .writeByteWs _ _ => some .writeByteWs
  | .readBkpt => some .readBkpt
  | .writeBkpt _ => some .writeBkpt
  | .setTarget => none
  | .setVdd _ => none
  | .getBdmStatus => none
  | .getCapabilities => none
  | .setOptions _ => none
  | .controlPins => none
  | .connect => none
  | .setSpeed _ => none
  | .getSpeed => none
  | .readStatusReg => none
  | .writeControlReg _ => none
  | .targetReset _ => none
  | .targetStep => none
  | .targetGo => none
  | .targetHalt => none
  | .writeReg _ _ => none
  | .readReg _ => none
  | .writeDreg _ _ => none
  | .readDreg _ => none
  | .writeMem _ _ _ _ => none
  | .readMem _ _ _ => none

/-- The parameter bytes of a BDM instruction, most significant byte of each field first (R60, R91); none for a host
command. -/
def Instr.bdmParams : Instr → List Byte
  | .ackEnable => []
  | .ackDisabled => []
  | .background => []
  | .go => []
  | .trace1 => []
  | .taggo => []
  | .readA => []
  | .readCcr => []
  | .readPc => []
  | .readHx => []
  | .readSp => []
  | .readNext => []
  | .readNextWs => []
  | .writeA d => [d]
  | .writeCcr d => [d]
  | .writePc v => halfBytes v
  | .writeHx v => halfBytes v
  | .writeSp v => halfBytes v
  | .writeNext d => [d]
  | .writeNextWs d => [d]
  | .readStatus => []
  | .writeControl d => [d]
  | .readByte a => halfBytes a
  | .readByteWs a => halfBytes a
  | .readLast => []
  | .writeByte a d => halfBytes a ++ [d]
  | .writeByteWs a d => halfBytes a ++ [d]
  | .readBkpt => []
  | .writeBkpt v => halfBytes v
  | .setTarget => []
  | .setVdd _ => []
  | .getBdmStatus => []
  | .getCapabilities => []
  | .setOptions _ => []
  | .controlPins => []
  | .connect => []
  | .setSpeed _ => []
  | .getSpeed => []
  | .readStatusReg => []
  | .writeControlReg _ => []
  | .targetReset _ => []
  | .targetStep => []
  | .targetGo => []
  | .targetHalt => []
  | .writeReg _ _ => []
  | .readReg _ => []
  | .writeDreg _ _ => []
  | .readDreg _ => []
  | .writeMem _ _ _ _ => []
  | .readMem _ _ _ => []

/-- The host command an instruction is, if it is one. -/
def Instr.hostOp : Instr → Option HostOp
  | .ackEnable => none
  | .ackDisabled => none
  | .background => none
  | .go => none
  | .trace1 => none
  | .taggo => none
  | .readA => none
  | .readCcr => none
  | .readPc => none
  | .readHx => none
  | .readSp => none
  | .readNext => none
  | .readNextWs => none
  | .writeA _ => none
  | .writeCcr _ => none
  | .writePc _ => none
  | .writeHx _ => none
  | .writeSp _ => none
  | .writeNext _ => none
  | .writeNextWs _ => none
  | .readStatus => none
  | .writeControl _ => none
  | .readByte _ => none
  | .readByteWs _ => none
  | .readLast => none
  | .writeByte _ _ => none
  | .writeByteWs _ _ => none
  | .readBkpt => none
  | .writeBkpt _ => none
  | .setTarget => some .setTarget
  | .setVdd _ => some .setVdd
  | .getBdmStatus => some .getBdmStatus
  | .getCapabilities => some .getCapabilities
  | .setOptions _ => some .setOptions
  | .controlPins => some .controlPins
  | .connect => some .connect
  | .setSpeed _ => some .setSpeed
  | .getSpeed => some .getSpeed
  | .readStatusReg => some .readStatusReg
  | .writeControlReg _ => some .writeControlReg
  | .targetReset _ => some .targetReset
  | .targetStep => some .targetStep
  | .targetGo => some .targetGo
  | .targetHalt => some .targetHalt
  | .writeReg _ _ => some .writeReg
  | .readReg _ => some .readReg
  | .writeDreg _ _ => some .writeDreg
  | .readDreg _ => some .readDreg
  | .writeMem _ _ _ _ => some .writeMem
  | .readMem _ _ _ => some .readMem

/-- The parameter bytes of a host command's frame (R99); none for a BDM command. -/
def Instr.hostParams : Instr → List Byte
  | .ackEnable => []
  | .ackDisabled => []
  | .background => []
  | .go => []
  | .trace1 => []
  | .taggo => []
  | .readA => []
  | .readCcr => []
  | .readPc => []
  | .readHx => []
  | .readSp => []
  | .readNext => []
  | .readNextWs => []
  | .writeA _ => []
  | .writeCcr _ => []
  | .writePc _ => []
  | .writeHx _ => []
  | .writeSp _ => []
  | .writeNext _ => []
  | .writeNextWs _ => []
  | .readStatus => []
  | .writeControl _ => []
  | .readByte _ => []
  | .readByteWs _ => []
  | .readLast => []
  | .writeByte _ _ => []
  | .writeByteWs _ _ => []
  | .readBkpt => []
  | .writeBkpt _ => []
  | .setTarget => []
  | .setVdd vdd => [vdd]
  | .getBdmStatus => []
  | .getCapabilities => []
  | .setOptions params => params
  | .controlPins => []
  | .connect => []
  | .setSpeed h => halfBytes h
  | .getSpeed => []
  | .readStatusReg => []
  | .writeControlReg v => wordBytes v
  | .targetReset m => [m]
  | .targetStep => []
  | .targetGo => []
  | .targetHalt => []
  | .writeReg id v => halfBytes id ++ wordBytes v
  | .readReg id => halfBytes id
  | .writeDreg id v => halfBytes id ++ wordBytes v
  | .readDreg id => halfBytes id
  | .writeMem mode count addr data => [mode, count] ++ halfBytes addr ++ data
  | .readMem mode count addr => [mode, count] ++ halfBytes addr

/-- The frame of a host command: size, opcode, parameters (R97). -/
def frameOf (o : HostOp) (params : List Byte) : List Byte :=
  BitVec.ofNat 8 (2 + params.length) :: o.code :: params

/-- The bytes of an instruction: a BDM transmit word, first byte sent first (R91), or a command frame (R97). -/
def encode (i : Instr) : List Byte :=
  match i.bdmOp, i.hostOp with
  | some o, _ => o.code :: i.bdmParams
  | none, some o => frameOf o i.hostParams
  | none, none => []

/-- The request that asks for an instruction. -/
def Instr.toInput (i : Instr) : Input := if i.bdmOp.isSome then .bdm (encode i) else .frame (encode i)

/-! The opcode table's words -/

/-- The first `n` bytes of `w`, least significant first. -/
def tableBytes : Nat → Nat → List Byte
  | 0, _ => []
  | n + 1, w => BitVec.ofNat 8 w :: tableBytes n (w / 256)

/-- The request behind a word of spec/opcode_table.json, whose bits 7..0 are the opcode byte: the first byte of a BDM word, or
byte 1 of a command frame (the table gives the size byte no bits, so it is the frame's own length). Bytes the table does
not give are 0. The two levels share the opcode bytes 0x08, 0x10 and 0x18; the table's word does not tell them apart and
is read as the BDM command (notes/assumptions/7.md). -/
def tableInput (nbits w : Nat) : Input :=
  match tableBytes ((nbits + 7) / 8) (w % 2 ^ nbits) with
  | [] => .bdm []
  | b :: p =>
    if (bdmOpOf b).isSome then .bdm (b :: p ++ List.replicate (3 - p.length) 0)
    else
      match hostOpOf b with
      | none => .frame (BitVec.ofNat 8 (2 + p.length) :: b :: p)
      | some o => .frame (frameOf o (p ++ List.replicate (o.minNp - p.length) 0))

/-- The instruction the decoder reads from a word of spec/opcode_table.json. -/
def decodeTableWord (nbits w : Nat) : Option Instr := decodeInput (tableInput nbits w)

end Sys2Proof
end

