-- ==== Sys2Proof/Machine/Codec.lean ====
section
/-! DEFINITION. The encode/decode utilities (spec/43_codec.md R290 to R299): pure functions on 8-bit ASCII codes, bits and
words. None reads or writes state (R299). -/

namespace Sys2Proof.Machine

/-- `hexToNibble(c)`, sentinel 0xFF (R290). -/
def hexToNibble (c : Byte) : Byte :=
  if 0x30 ≤ c ∧ c ≤ 0x39 then c - 0x30
  else if 0x41 ≤ c ∧ c ≤ 0x46 then c - 0x41 + 10
  else if 0x61 ≤ c ∧ c ≤ 0x66 then c - 0x61 + 10
  else 0xFF

/-- `nibbleToHex(n)`, sentinel 0xFF (R291). -/
def nibbleToHex (n : Byte) : Byte :=
  if n ≤ 9 then 0x30 + n else if n ≤ 15 then 0x41 + (n - 10) else 0xFF

/-- The fixed set of valid BDM opcodes (R292). -/
def validBdmBytes : List Byte :=
  [0x08, 0x10, 0x18, 0x48, 0x49, 0x4B, 0x4C, 0x4F, 0x50, 0x51, 0x68, 0x69, 0x6B, 0x6C, 0x6F, 0x70, 0x71, 0x90, 0xC0,
   0xC1, 0xC2, 0xC4, 0xD5, 0xD6, 0xE0, 0xE1, 0xE2, 0xE4, 0xE8]

/-- `isValidBdmCommand(b)` (R292). -/
def isValidBdmCommand (b : Byte) : Bool := validBdmBytes.contains b

/-- One step of the MSB-first packer: `v <- (v << 1) | bit` (R293). -/
def packMsbStep (v : Word) (b : Bool) : Word := (v <<< 1) ||| (if b then 1 else 0)

/-- `packMsb(bits)` (R293): `bits[0]` ends most significant; more than 32 bits give (false, 0). -/
def packMsb (bits : List Bool) : Bool × Word :=
  if 32 < bits.length then (false, 0) else (true, bits.foldl packMsbStep 0)

/-- The LSB-first packing of bits from index `i` on, onto `v` (R294). -/
def packLsbFrom : Nat → List Bool → Word → Word
  | _, [], v => v
  | i, b :: bs, v => packLsbFrom (i + 1) bs (v ||| (if b then (1 : Word) else 0) <<< i)

/-- `packLsb(bits)` (R294): `bits[0]` ends least significant; more than 32 bits give (false, 0). -/
def packLsb (bits : List Bool) : Bool × Word :=
  if 32 < bits.length then (false, 0) else (true, packLsbFrom 0 bits 0)

/-- `unpackMsb(v, n)` (R295): `bits[i] = v[n-1-i]`. The sentinel's value is the empty array. -/
def unpackMsb (v : Word) (n : Nat) : Bool × List Bool :=
  if 32 < n then (false, []) else (true, (List.range n).map fun i => v.getLsbD (n - 1 - i))

/-- `unpackLsb(v, n)` (R295): `bits[i] = v[i]`. The sentinel's value is the empty array. -/
def unpackLsb (v : Word) (n : Nat) : Bool × List Bool :=
  if 32 < n then (false, []) else (true, (List.range n).map fun i => v.getLsbD i)

/-- `byteToHex(b)` (R296). -/
def byteToHex (b : Byte) : List Byte :=
  [nibbleToHex ((b.extractLsb' 4 4).setWidth 8), nibbleToHex ((b.extractLsb' 0 4).setWidth 8)]

/-- `hexPairToByte(c1, c2)` (R296). -/
def hexPairToByte (c1 c2 : Byte) : Bool × Byte :=
  if hexToNibble c1 = 0xFF ∨ hexToNibble c2 = 0xFF then (false, 0)
  else (true, hexToNibble c1 * 16 + hexToNibble c2)

/-- The separator characters: space, tab, CR, LF (R297). -/
def isSeparator (c : Byte) : Bool := c = 0x20 || c = 0x09 || c = 0x0D || c = 0x0A

/-- The tokens of the rest of a string, `piece` being the characters of the token in progress. -/
def tokenizeFrom (piece : List Byte) : List Byte → List (List Byte)
  | [] => if piece.isEmpty then [] else [piece]
  | c :: cs =>
    if isSeparator c then (if piece.isEmpty then tokenizeFrom [] cs else piece :: tokenizeFrom [] cs)
    else tokenizeFrom (piece ++ [c]) cs

/-- `tokenize(s)` (R297). -/
def tokenize (s : List Byte) : List (List Byte) := tokenizeFrom [] s

/-- The value of a run of hex digits onto `acc`; `none` at a character that is none (R298, R290). -/
def hexValue : Nat → List Byte → Option Nat
  | acc, [] => some acc
  | acc, c :: cs => if hexToNibble c = 0xFF then none else hexValue (acc * 16 + (hexToNibble c).toNat) cs

/-- The value of a run of decimal digits onto `acc`; `none` at a character that is none (R298). -/
def decimalValue : Nat → List Byte → Option Nat
  | acc, [] => some acc
  | acc, c :: cs => if 0x30 ≤ c ∧ c ≤ 0x39 then decimalValue (acc * 10 + (c - 0x30).toNat) cs else none

/-- The value of a token as R298 reads it, before the bound: hexadecimal after `0x` or `0X`, else decimal. -/
def tokenValue : List Byte → Option Nat
  | [] => none
  | [c] => decimalValue 0 [c]
  | c1 :: c2 :: ds =>
    if c1 = 0x30 ∧ (c2 = 0x78 ∨ c2 = 0x58) then (if ds.isEmpty then none else hexValue 0 ds)
    else decimalValue 0 (c1 :: c2 :: ds)

/-- `parseNumber(t)` (R298). -/
def parseNumber (t : List Byte) : Bool × Word :=
  match tokenValue t with
  | none => (false, 0)
  | some v => if v < 2 ^ 32 then (true, BitVec.ofNat 32 v) else (false, 0)

end Sys2Proof.Machine
end

