-- ==== Sys2Proof/Machine/State.lean ====
section
/-! DEFINITION. The state of the block as plain data (spec/10_state.md), the requests and answers of the scheduler
port (spec/40_engine_core.md R160), the status codes (spec/60_exceptions.md R310), and the state after reset
(spec/10_state.md R39). -/

namespace Sys2Proof.Machine

/-- The sequencer state `E.seq` (R150). -/
inductive SeqState where
  | idle
  | claim
  | syncLoad
  | syncWait
  | txnLoad
  | shift
  | shiftWait
  deriving DecidableEq, Repr

/-- `E.cont` (R26, R150): who asked for the synchronize in progress. -/
inductive Cont where
  | ret
  | txn
  deriving DecidableEq, Repr

/-- The two waveform programs (R35, R160). -/
inductive Prog where
  | sync
  | txn
  deriving DecidableEq, Repr

/-- A request of the scheduler to the waveform engine (R160). -/
inductive WeRequest where
  | claim
  | load (prog : Prog) (div : Rat)
  | sync
  | shift (tx : Word) (nt nr : BitVec 6)
  deriving DecidableEq, Repr

/-- An answer of the waveform engine to WE_SYNC or WE_SHIFT (R160, R164). -/
inductive WeAnswer where
  | done (w : Word)
  | timeout
  deriving DecidableEq, Repr

/-- One line of the request trace (R16): a request issued, or the answer it got. -/
inductive WeEvent where
  | request (r : WeRequest)
  | answer (a : WeAnswer)
  deriving DecidableEq, Repr

/-- The only target family (R2, R29). -/
inductive TargetType where
  | hcs08
  deriving DecidableEq, Repr

/-- `C.speedMode` (R30). -/
inductive SpeedMode where
  | none
  | sync
  | guessed
  | user
  deriving DecidableEq, Repr

/-- The status codes (R310). -/
inductive Status where
  | ok
  | illegalParams
  | fail
  | busy
  | illegalCommand
  | bkgdTimeout
  | syncTimeout
  | ackTimeout
  | featureNotSupported
  deriving DecidableEq, Repr

/-- What an operation of the engine or dispatcher returns: Ok(v) or Err(S) (R13). -/
inductive Reply (α : Type) where
  | ok (v : α)
  | err (S : Status)
  deriving DecidableEq, Repr

/-- The value an engine operation returns (R131, R140, R183). -/
inductive EngineResult where
  /-- No result (rxBits 0). -/
  | none
  /-- An 8-bit data byte. -/
  | data (b : Byte)
  /-- An 8-bit target status byte. -/
  | status (b : Byte)
  /-- A 16-bit value. -/
  | value (v : Half)
  /-- The pair of a 16-bit WS receive. -/
  | statusData (st d : Byte)
  /-- The value of a bare executeTransaction. -/
  | received (v : Word)
  /-- The frequency of a bare synchronize. -/
  | frequency (f : Rat)
  deriving DecidableEq, Repr

/-- The Protocol Engine's registers (R21 to R26). -/
@[ext]
structure Engine where
  /-- `E.claimed` (R21). -/
  claimed : Bool
  /-- `E.progLoaded` (R22). -/
  progLoaded : Bool
  /-- `E.clockKnown` (R23). -/
  clockKnown : Bool
  /-- `E.fPio`, an exact rational in Hz (R24). -/
  fPio : Rat
  /-- `E.syncTicks` (R25). -/
  syncTicks : Half
  /-- `E.seq` (R26, R150). -/
  seq : SeqState
  /-- `E.cont` (R26). -/
  cont : Cont
  /-- `E.op` (R26). -/
  op : Byte
  /-- `E.txWord` (R26). -/
  txWord : Word
  /-- `E.txBits`, 6 bits (R26). -/
  txBits : BitVec 6
  /-- `E.rxBits`, 6 bits (R26). -/
  rxBits : BitVec 6
  /-- `E.rxWord` (R26). -/
  rxWord : Word
  deriving DecidableEq, Repr

/-- The stored fields of `cableStatus` (R29). The power state is sampled, not stored (D33); the sync length is
`E.syncTicks` itself (R25, C5). -/
@[ext]
structure CableStatus where
  /-- `C.targetType` (R29). -/
  targetType : TargetType
  /-- `C.ackMode` (R29). -/
  ackMode : Bool
  /-- `C.resetDetected` (R29). -/
  resetDetected : Bool
  /-- `C.speedMode` (R29, R30). -/
  speedMode : SpeedMode
  deriving DecidableEq, Repr

/-- What the block can tell of the waveform engine (R35, R36) and of the request it waits on (R37 I5, R153). -/
@[ext]
structure WePort where
  /-- The occupant of the WE program memory; `none` is no program of this block (R35, R39). -/
  program : Option Prog
  /-- The clock divider of the last WE_LOAD (R35, R162). -/
  divider : Rat
  /-- The WE_SYNC or WE_SHIFT that has no answer yet (R37 I5). -/
  outstanding : Option WeRequest
  /-- The receive channel: the completion word not yet consumed (R36). -/
  rxChannel : Option Word
  deriving DecidableEq, Repr

/-- The dispatcher's buffers and its position in a memory command (R27, R34). -/
@[ext]
structure Dispatcher where
  /-- The command frame buffer: the frame last taken (R34, R230). -/
  cmdFrame : List Byte
  /-- The response frame buffer: the response last emitted (R34, R234). -/
  rspFrame : List Byte
  /-- The byte index `i` of WRITE_MEM and READ_MEM (R27 (c)). -/
  memIndex : Byte
  /-- The address counter `a` of WRITE_MEM and READ_MEM (R27 (c), R64). -/
  memAddr : Half
  deriving DecidableEq, Repr

/-- The block's ports (R337) as plain data. What comes in stands in a list read from its head; what went out is
kept, oldest first (R16). These fields are the MODEL's own way to write down what the agents outside do. -/
@[ext]
structure Ports where
  /-- The requests the host and the callers of the engine interface will make, oldest first. -/
  inbox : List Input
  /-- The answers the WE will give, oldest first; past its end an answer is a free value (R164). -/
  weAnswers : List WeAnswer
  /-- The board's power-sense input at the coming samples; past its end a sample is a free value (R238). -/
  powerSamples : List Bool
  /-- How many free values have been drawn. -/
  draws : Nat
  /-- The request trace (R16 (2)). -/
  trace : List WeEvent
  /-- The response frames emitted (R16 (1)). -/
  responses : List (List Byte)
  /-- What the engine interface answered to its callers (R180, R140, R131). -/
  results : List (Reply EngineResult)
  deriving DecidableEq, Repr

/-- The whole state (R20). -/
@[ext]
structure State where
  eng : Engine
  cable : CableStatus
  /-- The bdmOptions image `O.image` (R31). -/
  options : List Byte
  we : WePort
  disp : Dispatcher
  io : Ports
  deriving DecidableEq, Repr

/-- Why a step faults. -/
inductive Fault where
  /-- A bare executeTransaction whose bit counts or parameter break R142. Raised by `executeTransaction` at the
  engine's own port only; no instruction reaches it (R328). Safe: the spec gives such a call no meaning. -/
  | preconditionViolation
  deriving DecidableEq, Repr

/-- Why a step is refused. -/
inductive Refusal where
  /-- An instruction that has no meaning in the model yet; raised by `exec` only. No arm raises it. Safe. -/
  | notModelled (mnemonic : String)
  /-- The host handed over a frame of another length than its size byte says (R346, U17: such a run has no move).
  Raised by the fetch. Safe: the spec takes that host out of the model. -/
  | hostDutyBroken
  /-- A caller of the engine interface gave a BDM command fewer parameter bytes than its row has (R181). Raised by
  the fetch. Safe: the spec gives such a call no meaning. -/
  | truncatedBdmWord (op : BdmOp)
  deriving DecidableEq, Repr

/-- The state right after reset (R39, R350, R351): every flag in the position that forces a claim, a synchronize and a
load before the first shift; nothing asked yet, nothing emitted yet. The latches of R26, which the spec leaves
unspecified at reset, and the model's own fields are 0 or empty (notes/assumptions/1.md, 2.md). -/
def State.reset : State where
  eng :=
    { claimed := false, progLoaded := false, clockKnown := false, fPio := 0, syncTicks := 0, seq := .idle,
      cont := .ret, op := 0, txWord := 0, txBits := 0, rxBits := 0, rxWord := 0 }
  cable := { targetType := .hcs08, ackMode := false, resetDetected := false, speedMode := .none }
  options := optionsResetImage
  we := { program := none, divider := 0, outstanding := none, rxChannel := none }
  disp := { cmdFrame := [], rspFrame := [], memIndex := 0, memAddr := 0 }
  io :=
    { inbox := [], weAnswers := [], powerSamples := [], draws := 0, trace := [], responses := [], results := [] }

end Sys2Proof.Machine
end

