-- ==== Sys2Proof/Machine/Flags.lean ====
section
/-! DEFINITION. The block's flags `E.claimed`, `E.progLoaded` and `E.clockKnown` (spec/10_state.md R28), their writers,
and the encodings of the status codes and of the speed mode. -/

namespace Sys2Proof.Machine

/-- `E.claimed <- 1`; nothing clears it (R21). -/
def State.setClaimed (s : State) : State := { s with eng := { s.eng with claimed := true } }

/-- `E.progLoaded <- b` (R22). -/
def State.setProgLoaded (b : Bool) (s : State) : State := { s with eng := { s.eng with progLoaded := b } }

/-- `E.clockKnown <- 0` (R23). -/
def State.clearClock (s : State) : State := { s with eng := { s.eng with clockKnown := false } }

/-- The post-effect CLK of R181: which BDM commands clear `E.clockKnown` after their transaction (R187, R189, D11). -/
def clearsClock (o : BdmOp) : Bool := o = .go || o = .taggo

/-- The value of a status code, the default of STATUS_CODE (R310). -/
def Status.code : Status → Byte
  | .ok => 0x00
  | .illegalParams => 0x01
  | .fail => 0x02
  | .busy => 0x03
  | .illegalCommand => 0x04
  | .bkgdTimeout => 0x14
  | .syncTimeout => 0x15
  | .ackTimeout => 0x1E
  | .featureNotSupported => 0x20

/-- The 2-bit encoding of `C.speedMode` (R30). -/
def SpeedMode.code : SpeedMode → Half
  | .none => 0
  | .sync => 1
  | .guessed => 2
  | .user => 3

/-- The status word of GET_BDM_STATUS (R238, D29). -/
def statusWord (mode : SpeedMode) (power : Bool) : Half :=
  (mode.code <<< speedShift) ||| (if power then powerPresentMask else 0)

end Sys2Proof.Machine
end

