-- ==== Sys2Proof/Machine/Operands.lean ====
section
/-! DEFINITION. The operand forms: the transmit word of a BDM command (spec/30_encoding.md R91, spec/40_engine_core.md
R143), the received value and its unpacking (R93, R146, R183), the register ids (R255), the reset byte (R248) and the
memory checks (R260). -/

namespace Sys2Proof.Machine

/-- The concatenation of parameters, each truncated to its field width, first parameter most significant (R180), below
the bits `acc` already there. A parameter that is not given counts as 0. -/
def packFields : List Nat → List Nat → Nat → Nat
  | [], _, acc => acc
  | w :: ws, args, acc => packFields ws args.tail (acc * 2 ^ w + args.headD 0 % 2 ^ w)

/-- `zext_32(op ++ P)`, right-aligned, P being `nt - 8` bits wide (R143). -/
def txWordOf (op : Byte) (P nt : Nat) : Word := BitVec.ofNat 32 (op.toNat * 2 ^ (nt - 8) + P)

/-- The value of a transaction: `w mod 2^nr`, and 0 for `nr = 0` (R146). -/
def receivedOf (nr : BitVec 6) (w : Word) : Word := BitVec.ofNat 32 (w.toNat % 2 ^ nr.toNat)

/-- The precondition of executeTransaction (R142). -/
def transactionPre (P nt nr : Nat) : Bool := 8 ≤ nt && nt ≤ regWidth && nr ≤ regWidth && P < 2 ^ (nt - 8)

/-- How a BDM command's received value is read (R181, R183). -/
inductive Unpacking where
  | none
  | data
  | status
  | value
  | statusData
  deriving DecidableEq, Repr

/-- The result column of R181. -/
def unpackingOf : BdmOp → Unpacking
  | .ackEnable => .none | .ackDisabled => .none | .background => .none | .go => .none | .trace1 => .none | .taggo => .none
  | .readA => .data | .readCcr => .data | .readPc => .value | .readHx => .value | .readSp => .value
  | .readNext => .data | .readNextWs => .statusData
  | .writeA => .none | .writeCcr => .none | .writePc => .none | .writeHx => .none | .writeSp => .none
  | .writeNext => .none | .writeNextWs => .status | .readStatus => .status | .writeControl => .none
  | .readByte => .data | .readByteWs => .statusData | .readLast => .statusData
  | .writeByte => .none | .writeByteWs => .status | .readBkpt => .value | .writeBkpt => .none

/-- `unpack(op, v)` (R183). -/
def unpack (o : BdmOp) (v : Word) : EngineResult :=
  match unpackingOf o with
  | .none => .none
  | .data => .data (v.extractLsb' 0 8)
  | .status => .status (v.extractLsb' 0 8)
  | .value => .value (v.extractLsb' 0 16)
  | .statusData => .statusData (v.extractLsb' 8 8) (v.extractLsb' 0 8)

/-- A result as the 16-bit number a host command places in its payload, zero-extended (R63, R254). -/
def EngineResult.toHalf : EngineResult → Half
  | .none => 0
  | .data b => b.setWidth 16
  | .status b => b.setWidth 16
  | .value v => v
  | .statusData st d => st ++ d
  | .received v => v.setWidth 16
  | .frequency _ => 0

/-- A result as a 4-byte payload, zero-extended and right-aligned (R63, R245, R254, R257). -/
def EngineResult.payload4 (r : EngineResult) : List Byte := [0x00, 0x00] ++ halfBytes r.toHalf

/-- The target registers of WRITE_REG and READ_REG (R32, R255). -/
inductive TargetReg where
  | pc
  | sp
  | hx
  | a
  | ccr
  deriving DecidableEq, Repr

/-- `regDecode(id)`: the whole 16-bit id (R255, R103). -/
def regDecode (id : Half) : Reply TargetReg :=
  if id = 0x000B then .ok .pc
  else if id = 0x000F then .ok .sp
  else if id = 0x000C then .ok .hx
  else if id = 0x0008 then .ok .a
  else if id = 0x0009 then .ok .ccr
  else .err .illegalParams

/-- The read command of a target register (R255). -/
def TargetReg.readOp : TargetReg → BdmOp
  | .pc => .readPc
  | .sp => .readSp
  | .hx => .readHx
  | .a => .readA
  | .ccr => .readCcr

/-- The write command of a target register (R255). -/
def TargetReg.writeOp : TargetReg → BdmOp
  | .pc => .writePc
  | .sp => .writeSp
  | .hx => .writeHx
  | .a => .writeA
  | .ccr => .writeCcr

/-- The width `w` of a target register (R32, R255). -/
def TargetReg.width : TargetReg → Nat
  | .pc => 16
  | .sp => 16
  | .hx => 16
  | .a => 8
  | .ccr => 8

/-- `decodeReset(m)`: the checks of R248 in their order. -/
def decodeReset (m : Byte) : Reply ResetMode :=
  if m.extractLsb' 4 4 ≠ 0 then .err .illegalParams
  else if 2 ≤ (m.extractLsb' 0 2).toNat then .err .illegalParams
  else if m.extractLsb' 2 2 = 0 then .err .illegalParams
  else if m.extractLsb' 2 2 = 1 then .err .featureNotSupported
  else if m.extractLsb' 2 2 = 3 then .err .featureNotSupported
  else if m.extractLsb' 0 2 = 0 then .ok .special
  else .ok .normal

/-- The direction of a memory command (R260). -/
inductive MemDir where
  | write
  | read
  deriving DecidableEq, Repr

/-- `memChecks(dir, mode, n, np)` in its order (R260); `avail` is `np - 4`, the parameter bytes after the header. -/
def memChecks (dir : MemDir) (mode : Byte) (n avail : Nat) : Reply Unit :=
  if mode ≠ memModeNormal then .err .featureNotSupported
  else if dir = .write ∧ avail < n then .err .illegalParams
  else if dir = .read ∧ maxResponseSize < 1 + n then .err .illegalParams
  else .ok ()

end Sys2Proof.Machine
end

