-- ==== Sys2Proof/Machine/Ops.lean ====
section
/-! DEFINITION. The named operations over the state: the scheduler port (spec/40_engine_core.md R160 to R163), the
registers, the free values, the buffers, and the response (spec/42_dispatcher.md R234), whose error form is the whole of
taking an exception on this hardware (spec/60_exceptions.md R320). -/

namespace Sys2Proof.Machine

/-! The scheduler port -/

/-- One more line of the request trace (R16). -/
def State.logEvent (e : WeEvent) (s : State) : State := { s with io := { s.io with trace := s.io.trace ++ [e] } }

/-- WE_CLAIM (R161): it completes at once. -/
def State.weClaim (s : State) : State := s.logEvent (.request .claim)

/-- WE_LOAD(prog, div) (R162): the program memory holds `prog`, the divider is `div`; there is no answer. -/
def State.weLoad (p : Prog) (div : Rat) (s : State) : State :=
  let s := s.logEvent (.request (.load p div))
  { s with we := { s.we with program := some p, divider := div } }

/-- Issue WE_SYNC or WE_SHIFT (R160): from here on the request waits for its answer. -/
def State.weIssue (r : WeRequest) (s : State) : State :=
  let s := s.logEvent (.request r)
  { s with we := { s.we with outstanding := some r } }

/-- A free value as an answer. -/
def WeAnswer.ofDraw : Option Word → WeAnswer
  | some w => .done w
  | none => .timeout

/-- The WE's next answer, a draw (R164): the next one written down, or a free value. -/
def State.nextAnswer (s : State) : WeAnswer :=
  match s.io.weAnswers with
  | a :: _ => a
  | [] => .ofDraw (Config.weAnswer s.io.draws)

/-- The state once that answer has been drawn. -/
def State.popAnswer (s : State) : State :=
  match s.io.weAnswers with
  | _ :: rest => { s with io := { s.io with weAnswers := rest } }
  | [] => { s with io := { s.io with draws := s.io.draws + 1 } }

/-- The completion word of an answer, if there is one. -/
def WeAnswer.word? : WeAnswer → Option Word
  | .done w => some w
  | .timeout => none

/-- The WE answers the outstanding request: a completion puts its one word into the receive channel (R36, R163). -/
def State.deliver (a : WeAnswer) (s : State) : State :=
  let s := s.logEvent (.answer a)
  { s with we := { s.we with outstanding := none, rxChannel := a.word? } }

/-- The scheduler takes the word out of the receive channel (R36, R163). -/
def State.consume (s : State) : State := { s with we := { s.we with rxChannel := none } }

/-- One wait of the engine (R144, R148, R322): the answer, and the state after it. The completion is read from the
receive channel; an empty channel is a Timeout. -/
def State.weWait (s : State) : WeAnswer × State :=
  let s1 := s.popAnswer.deliver s.nextAnswer
  (.ofDraw s1.we.rxChannel, s1.consume)

/-! The engine's registers -/

/-- `E.seq <- q` (R150). -/
def State.setSeq (q : SeqState) (s : State) : State := { s with eng := { s.eng with seq := q } }

/-- `E.cont <- c` (R150). -/
def State.setCont (c : Cont) (s : State) : State := { s with eng := { s.eng with cont := c } }

/-- The latches of a transaction (R151, second row): `E.op`, `E.txBits`, `E.rxBits`, `E.txWord`, and `E.cont <- TXN`. -/
def State.latch (op : Byte) (P nt nr : Nat) (s : State) : State :=
  { s with
    eng :=
      { s.eng with
        cont := .txn, op := op, txBits := BitVec.ofNat 6 nt, rxBits := BitVec.ofNat 6 nr, txWord := txWordOf op P nt } }

/-- `E.rxWord <- w` (R140). -/
def State.setRxWord (w : Word) (s : State) : State := { s with eng := { s.eng with rxWord := w } }

/-- What a successful synchronize writes (R138): `E.fPio <- f`, `E.syncTicks <- w[15:0]`, `E.clockKnown <- 1`. -/
def State.storeSync (w : Word) (f : Rat) (s : State) : State :=
  { s with eng := { s.eng with fPio := f, syncTicks := w.extractLsb' 0 16, clockKnown := true } }

/-- `setSyncLength(v)` (R149): it writes `E.syncTicks` and nothing else. -/
def State.setSyncLength (v : Half) (s : State) : State := { s with eng := { s.eng with syncTicks := v } }

/-- The end of an engine operation: the six latches of R26 hold any value (spec/93_implementation_defined.md U10), a free
value each (notes/assumptions/10.md). -/
def State.releaseLatches (s : State) : State :=
  { s with
    eng :=
      { s.eng with
        cont := if Config.restingCont s.io.draws then .txn else .ret
        op := Config.restingOp s.io.draws
        txWord := Config.restingTxWord s.io.draws
        txBits := BitVec.ofNat 6 (Config.restingTxBits s.io.draws).val
        rxBits := BitVec.ofNat 6 (Config.restingRxBits s.io.draws).val
        rxWord := Config.restingRxWord s.io.draws }
    io := { s.io with draws := s.io.draws + 1 } }

/-- An engine operation that is over: its latches released, its reply kept. -/
def released {α : Type} (p : State × α) : State × α := (p.1.releaseLatches, p.2)

/-! The dispatcher's registers -/

/-- `C.speedMode <- m` (R29). -/
def State.setSpeedMode (m : SpeedMode) (s : State) : State := { s with cable := { s.cable with speedMode := m } }

/-- `O.image[i] <- b` (R31). -/
def State.setOption (i : Nat) (b : Byte) (s : State) : State := { s with options := s.options.set i b }

/-- The whole options image (R240). -/
def State.setOptions (image : List Byte) (s : State) : State := { s with options := image }

/-- The position inside a memory command (R27 (c)). -/
def State.setMemPos (i : Nat) (a : Half) (s : State) : State :=
  { s with disp := { s.disp with memIndex := BitVec.ofNat 8 i, memAddr := a } }

/-- The command frame buffer takes a frame, as far as it holds one (R34, R230). -/
def State.recordFrame (bytes : List Byte) (s : State) : State :=
  { s with disp := { s.disp with cmdFrame := bytes.take maxCommandSize } }

/-- The byte at index `i` of the command frame buffer, of the response frame buffer, of the options image. -/
def State.cmdByte (s : State) (i : Nat) : Option Byte := s.disp.cmdFrame[i]?

@[inherit_doc State.cmdByte]
def State.rspByte (s : State) (i : Nat) : Option Byte := s.disp.rspFrame[i]?

@[inherit_doc State.cmdByte]
def State.optionByte (s : State) (i : Nat) : Option Byte := s.options[i]?

/-- The byte buffers keep to their capacities (R34, R31). The block has no other memory (spec/20_memory.md), and a byte
list is its own canonical form: equal buffers are equal lists. -/
abbrev Memory.wf (s : State) : Prop :=
  s.disp.cmdFrame.length ≤ maxCommandSize ∧ s.disp.rspFrame.length ≤ maxResponseSize ∧ s.options.length = optionsSize

/-! Free values and inputs -/

/-- The board's power-sense input at this sample, a draw (R238, D33). -/
def State.powerSample (s : State) : Bool :=
  match s.io.powerSamples with
  | b :: _ => b
  | [] => Config.powerPresent s.io.draws

/-- The state once the power-sense input has been sampled. -/
def State.popPower (s : State) : State :=
  match s.io.powerSamples with
  | _ :: rest => { s with io := { s.io with powerSamples := rest } }
  | [] => { s with io := { s.io with draws := s.io.draws + 1 } }

/-- `n` payload bytes of any value (R234). -/
def State.freeBytes (n : Nat) (s : State) : List Byte :=
  (List.range n).map fun k => Config.payloadByte (s.io.draws + k)

/-! Answers -/

/-- `emit` (R230, R234): the status in byte 0, then the payload. -/
def State.respond (S : Status) (payload : List Byte) (s : State) : State :=
  { s with
    disp := { s.disp with rspFrame := S.code :: payload }
    io := { s.io with responses := s.io.responses ++ [S.code :: payload] } }

/-- TAKING AN ERROR (R320): the status in response byte 0, `n` payload bytes of any value (R234), the response emitted.
There is no saved program counter, no vector and no return (R326). -/
def State.respondErr (S : Status) (n : Nat) (s : State) : State :=
  let t := s.respond S (s.freeBytes n)
  { t with io := { t.io with draws := t.io.draws + n } }

/-- The response of a command that ends with a reply: its payload when OK (R234), `n` free bytes otherwise. -/
def answer {α : Type} (n : Nat) (payload : α → List Byte) (p : State × Reply α) : State :=
  match p.2 with
  | .ok v => p.1.respond .ok (payload v)
  | .err S => p.1.respondErr S n

/-- What the engine interface answers its caller. -/
def State.pushResult (r : Reply EngineResult) (s : State) : State :=
  { s with io := { s.io with results := s.io.results ++ [r] } }

end Sys2Proof.Machine
end

