-- ==== Sys2Proof/Machine/Sync.lean ====
section
/-! DEFINITION. The sync measurement and its numeric conversions (spec/40_engine_core.md R130 to R139). -/

namespace Sys2Proof.Machine

/-- `measuredTimeMicros(w)` (R136). -/
def measuredTimeMicros (w : Nat) : Rat := (w : Rat) * syncTickCycles * syncPeriodMicros

/-- `F(w)` in Hz (R136), exact; it is used for `w ≥ 1` only (R135 (b)). -/
def syncFrequency (w : Nat) : Rat := syncTargetCycles * 1000000 / measuredTimeMicros w

/-- `Q(x)`: truncation to DIV_FRAC_BITS fractional bits (R139). -/
def quantize (x : Rat) : Rat := ((x * (2 ^ divFracBits : Nat)).floor : Rat) / (2 ^ divFracBits : Nat)

/-- `Div(f)` (R139). -/
def clockDivider (f : Rat) : Rat := quantize (weInputClockHz / f)

/-- `DIV_SYNC` (R132). -/
def divSync : Rat := quantize (weInputClockHz / syncFreqHz)

/-- Whether a divider is in the WE's legal range (R9, R135 (d)). -/
def dividerLegal (d : Rat) : Bool := divMin ≤ d && d ≤ divMax

/-- The frequency a tick count stands for, or `none` where it is a failure: w = 0, w > 0xFFFF, or a divider out of range
(R135 (b), (c), (d)). -/
def tickFrequency (w : Word) : Option Rat :=
  if w = 0 ∨ 0xFFFF < w.toNat then none
  else if dividerLegal (clockDivider (syncFrequency w.toNat)) then some (syncFrequency w.toNat)
  else none

/-- The outcome of a WE_SYNC answer: the tick count and its frequency, or a failure (R135). -/
def syncOutcome : WeAnswer → Option (Word × Rat)
  | .timeout => none
  | .done w => (tickFrequency w).map fun f => (w, f)

/-- `ensureClaimed()` (R130). -/
def ensureClaimed (s : State) : State := if s.eng.claimed then s else s.weClaim.setClaimed

/-- SEQ_SYNC_LOAD (R131, R133, R151): WE_LOAD(PROG_SYNC, DIV_SYNC); `E.progLoaded <- 0`; WE_SYNC issued. -/
def syncLoadPhase (s : State) : State := ((s.weLoad .sync divSync).setProgLoaded false).weIssue .sync

/-- SEQ_SYNC_WAIT (R134, R135, R137, R138): the answer and what it writes. -/
def syncAnswerPhase (s : State) : State × Reply Rat :=
  match syncOutcome s.weWait.1 with
  | none => (s.weWait.2.clearClock, .err .syncTimeout)
  | some (w, f) => (s.weWait.2.storeSync w f, .ok f)

/-- The body of `synchronize()` (R131). -/
def measureClock (s : State) : State × Reply Rat := syncAnswerPhase (syncLoadPhase (ensureClaimed s))

/-- `synchronize()` asked for alone: `E.cont <- RET` (R131, R151 first row). -/
def synchronize (s : State) : State × Reply Rat := released (measureClock (s.setCont .ret))

end Sys2Proof.Machine
end

