-- ==== Sys2Proof/Machine/Engine.lean ====
section
/-! DEFINITION. executeTransaction (spec/40_engine_core.md R140 to R148) and the sequencer that refines it (R150 to
R153). Both are built from the same phases, one per sequencer state. -/

namespace Sys2Proof.Machine

/-- SEQ_TXN_LOAD (R141, R151): PROG_TXN is loaded when it is not there. -/
def txnLoadPhase (s : State) : State :=
  if s.eng.progLoaded then s else (s.weLoad .txn (clockDivider s.eng.fPio)).setProgLoaded true

/-- SEQ_SHIFT (R144, R151): WE_SHIFT(E.txWord, E.txBits, E.rxBits). -/
def shiftPhase (s : State) : State := s.weIssue (.shift s.eng.txWord s.eng.txBits s.eng.rxBits)

/-- SEQ_SHIFT_WAIT (R145, R146, R151). -/
def shiftAnswerPhase (s : State) : State × Reply Word :=
  match s.weWait.1 with
  | .timeout => ((s.weWait.2.setProgLoaded false).clearClock, .err .bkgdTimeout)
  | .done w => (s.weWait.2.setRxWord w, .ok (receivedOf s.eng.rxBits w))

/-- Steps 3 to 6 of executeTransaction: load, shift, result (R140). -/
def shiftTransaction (s : State) : State × Reply Word := shiftAnswerPhase (shiftPhase (txnLoadPhase s))

/-- The body of executeTransaction after its preconditions (R140): claim, synchronize when the clock is unknown, load,
shift. -/
def transactBody (op : Byte) (P nt nr : Nat) (s : State) : State × Reply Word :=
  let s1 := ensureClaimed (s.latch op P nt nr)
  if s1.eng.clockKnown then shiftTransaction s1
  else
    match measureClock s1 with
    | (s2, .err S) => (s2, .err S)
    | (s2, .ok _) => shiftTransaction s2

/-- executeTransaction after its preconditions, to its end (R140, R26). -/
def transact (op : Byte) (P nt nr : Nat) (s : State) : State × Reply Word := released (transactBody op P nt nr s)

/-- `executeTransaction(op, P, nt, nr)` at the engine's own port: a call that breaks the preconditions is the fault
PreconditionViolation and makes no request (R140, R142, R328). The opcode is not checked (notes/assumptions/21.md). -/
def executeTransaction (op : Byte) (P nt nr : Nat) (s : State) : Host.Outcome (State × Reply Word) Fault Refusal :=
  if transactionPre P nt nr then .next (transact op P nt nr s) else .fault .preconditionViolation

/-! The sequencer -/

/-- SEQ_IDLE with a synchronize asked for (R151, first row). -/
def startSynchronize (s : State) : State := (s.setCont .ret).setSeq .claim

/-- SEQ_IDLE with an executeTransaction asked for, preconditions holding (R151, second row). -/
def startTransaction (op : Byte) (P nt nr : Nat) (s : State) : State := (s.latch op P nt nr).setSeq .claim

/-- Where SEQ_CLAIM leads (R151, rows 3 to 5). -/
def afterClaim (s : State) : SeqState := if s.eng.cont = .ret ∨ s.eng.clockKnown = false then .syncLoad else .txnLoad

/-- One transition of R151 out of a state other than SEQ_IDLE. A bare operation's result goes to its caller. -/
def sequencerStep (s : State) : State :=
  match s.eng.seq with
  | .idle => s
  | .claim => (ensureClaimed s).setSeq (afterClaim s)
  | .syncLoad => (syncLoadPhase s).setSeq .syncWait
  | .syncWait =>
    match syncAnswerPhase s with
    | (s1, .err S) => (s1.releaseLatches.setSeq .idle).pushResult (.err S)
    | (s1, .ok f) =>
      if s.eng.cont = .ret then (s1.releaseLatches.setSeq .idle).pushResult (.ok (.frequency f)) else s1.setSeq .txnLoad
  | .txnLoad => (txnLoadPhase s).setSeq .shift
  | .shift => (shiftPhase s).setSeq .shiftWait
  | .shiftWait =>
    match shiftAnswerPhase s with
    | (s1, .err S) => (s1.releaseLatches.setSeq .idle).pushResult (.err S)
    | (s1, .ok v) => (s1.releaseLatches.setSeq .idle).pushResult (.ok (.received v))

end Sys2Proof.Machine
end

