-- ==== Sys2Proof/Machine/Bdm.lean ====
section
/-! DEFINITION. The one wrapper through which every BDM command and every host command reaches the engine
(spec/41_bdm_commands.md R180 to R183). -/

namespace Sys2Proof.Machine

/-- A valid BDM command with its arguments (R180): the transaction of its row (R181), the post-effect CLK, the
unpacking. On an error the post-effect is not applied. -/
def bdmRun (o : BdmOp) (args : List Nat) (s : State) : State × Reply EngineResult :=
  match transact o.code (packFields o.format.fields args 0) o.format.txBits o.format.rxBits s with
  | (s1, .err S) => (s1, .err S)
  | (s1, .ok v) => (if clearsClock o then s1.clearClock else s1, .ok (unpack o v))

/-- `bdmCmd(op, a1, a2)` (R180): a byte that is no BDM command sends nothing, writes nothing and fails with
ILLEGAL_COMMAND (R182). -/
def bdmCmd (op : Byte) (args : List Nat) (s : State) : State × Reply EngineResult :=
  if isValidBdmCommand op then
    match bdmOpOf op with
    | some o => bdmRun o args s
    | none => (s, .err .illegalCommand)
  else (s, .err .illegalCommand)

/-- `MemRead(addr, 1)` (spec/00_scope.md R12, R206). -/
def memRead (a : Half) (s : State) : State × Reply EngineResult := bdmCmd BdmOp.readByte.code [a.toNat] s

/-- `MemWrite(addr, 1, v)` (spec/00_scope.md R12, R209). -/
def memWrite (a : Half) (d : Byte) (s : State) : State × Reply EngineResult :=
  bdmCmd BdmOp.writeByte.code [a.toNat, d.toNat] s

/-- A BDM command asked for at the engine interface: the wrapper, and its result to the caller. -/
def atEngine (o : BdmOp) (args : List Nat) (s : State) : State :=
  (bdmCmd o.code args s).1.pushResult (bdmCmd o.code args s).2

end Sys2Proof.Machine
end

