-- ==== Sys2Proof/Machine/BdmControl.lean ====
section
/-! DEFINITION. The opcode-only BDM commands (spec/41_bdm_commands.md R184 to R189), asked for at the
engine interface. Each is the wrapper of R180 on its own row of R181. -/

namespace Sys2Proof.Machine

/-- ACK_ENABLE (R184). `C.ackMode` is not written and no ACKN pulse is waited for (D4). -/
def execAckEnable (s : State) : Host.Outcome State Fault Refusal :=
  .next (atEngine .ackEnable [] s)

/-- ACK_DISABLED (R185). `C.ackMode` is not written (D4). -/
def execAckDisabled (s : State) : Host.Outcome State Fault Refusal :=
  .next (atEngine .ackDisabled [] s)

/-- BACKGROUND (R186). `E.clockKnown` is kept. -/
def execBackground (s : State) : Host.Outcome State Fault Refusal :=
  .next (atEngine .background [] s)

/-- GO (R187). Then `E.clockKnown <- 0`; `E.progLoaded` is left as it is. -/
def execGo (s : State) : Host.Outcome State Fault Refusal :=
  .next (atEngine .go [] s)

/-- TRACE1 (R188). `E.clockKnown` is kept (D11). -/
def execTrace1 (s : State) : Host.Outcome State Fault Refusal :=
  .next (atEngine .trace1 [] s)

/-- TAGGO (R189). As GO: then `E.clockKnown <- 0` (D11). -/
def execTaggo (s : State) : Host.Outcome State Fault Refusal :=
  .next (atEngine .taggo [] s)

end Sys2Proof.Machine
end

