-- ==== Sys2Proof/Machine/BdmMem.lean ====
section
/-! DEFINITION. The target memory byte commands (spec/41_bdm_commands.md R195, R196, R202, R203, R206 to R210), asked for at the
engine interface. Each is the wrapper of R180 on its own row of R181. -/

namespace Sys2Proof.Machine

/-- READ_NEXT (R195). The block keeps no address counter. -/
def execReadNext (s : State) : Host.Outcome State Fault Refusal :=
  .next (atEngine .readNext [] s)

/-- READ_NEXT_WS (R196). The target status returned is data, not a status code. -/
def execReadNextWs (s : State) : Host.Outcome State Fault Refusal :=
  .next (atEngine .readNextWs [] s)

/-- WRITE_NEXT (R202). -/
def execWriteNext (d : Byte) (s : State) : Host.Outcome State Fault Refusal :=
  .next (atEngine .writeNext [d.toNat] s)

/-- WRITE_NEXT_WS (R203). The target status returned is data. -/
def execWriteNextWs (d : Byte) (s : State) : Host.Outcome State Fault Refusal :=
  .next (atEngine .writeNextWs [d.toNat] s)

/-- READ_BYTE (R206). -/
def execReadByte (a : Half) (s : State) : Host.Outcome State Fault Refusal :=
  .next (atEngine .readByte [a.toNat] s)

/-- READ_BYTE_WS (R207). Returns (status, data). -/
def execReadByteWs (a : Half) (s : State) : Host.Outcome State Fault Refusal :=
  .next (atEngine .readByteWs [a.toNat] s)

/-- READ_LAST (R208). Returns (status, data). -/
def execReadLast (s : State) : Host.Outcome State Fault Refusal :=
  .next (atEngine .readLast [] s)

/-- WRITE_BYTE (R209). -/
def execWriteByte (a : Half) (d : Byte) (s : State) : Host.Outcome State Fault Refusal :=
  .next (atEngine .writeByte [a.toNat, d.toNat] s)

/-- WRITE_BYTE_WS (R210). Returns the target status, as data. -/
def execWriteByteWs (a : Half) (d : Byte) (s : State) : Host.Outcome State Fault Refusal :=
  .next (atEngine .writeByteWs [a.toNat, d.toNat] s)

end Sys2Proof.Machine
end

