-- ==== Sys2Proof/Machine/BdmRegs.lean ====
section
/-! DEFINITION. The target register reads and writes (spec/41_bdm_commands.md R190 to R194, R197 to R201), asked for at the
engine interface. Each is the wrapper of R180 on its own row of R181. -/

namespace Sys2Proof.Machine

/-- READ_A (R190). -/
def execReadA (s : State) : Host.Outcome State Fault Refusal :=
  .next (atEngine .readA [] s)

/-- READ_CCR (R191). -/
def execReadCcr (s : State) : Host.Outcome State Fault Refusal :=
  .next (atEngine .readCcr [] s)

/-- READ_PC (R192). -/
def execReadPc (s : State) : Host.Outcome State Fault Refusal :=
  .next (atEngine .readPc [] s)

/-- READ_HX (R193). -/
def execReadHx (s : State) : Host.Outcome State Fault Refusal :=
  .next (atEngine .readHx [] s)

/-- READ_SP (R194). -/
def execReadSp (s : State) : Host.Outcome State Fault Refusal :=
  .next (atEngine .readSp [] s)

/-- WRITE_A (R197). -/
def execWriteA (d : Byte) (s : State) : Host.Outcome State Fault Refusal :=
  .next (atEngine .writeA [d.toNat] s)

/-- WRITE_CCR (R198). -/
def execWriteCcr (d : Byte) (s : State) : Host.Outcome State Fault Refusal :=
  .next (atEngine .writeCcr [d.toNat] s)

/-- WRITE_PC (R199). -/
def execWritePc (v : Half) (s : State) : Host.Outcome State Fault Refusal :=
  .next (atEngine .writePc [v.toNat] s)

/-- WRITE_HX (R200). -/
def execWriteHx (v : Half) (s : State) : Host.Outcome State Fault Refusal :=
  .next (atEngine .writeHx [v.toNat] s)

/-- WRITE_SP (R201). -/
def execWriteSp (v : Half) (s : State) : Host.Outcome State Fault Refusal :=
  .next (atEngine .writeSp [v.toNat] s)

end Sys2Proof.Machine
end

