-- ==== Sys2Proof/Machine/BdmStatus.lean ====
section
/-! DEFINITION. The target status and control register and the breakpoint register (spec/41_bdm_commands.md R204, R205, R211, R212), asked for at the
engine interface. Each is the wrapper of R180 on its own row of R181. -/

namespace Sys2Proof.Machine

/-- READ_STATUS (R204). -/
def execReadStatus (s : State) : Host.Outcome State Fault Refusal :=
  .next (atEngine .readStatus [] s)

/-- WRITE_CONTROL (R205). `E.clockKnown` is kept (R361). -/
def execWriteControl (d : Byte) (s : State) : Host.Outcome State Fault Refusal :=
  .next (atEngine .writeControl [d.toNat] s)

/-- READ_BKPT (R211). -/
def execReadBkpt (s : State) : Host.Outcome State Fault Refusal :=
  .next (atEngine .readBkpt [] s)

/-- WRITE_BKPT (R212). -/
def execWriteBkpt (v : Half) (s : State) : Host.Outcome State Fault Refusal :=
  .next (atEngine .writeBkpt [v.toNat] s)

end Sys2Proof.Machine
end

