-- ==== Sys2Proof/Machine/HostConfig.lean ====
section
/-! DEFINITION. The configuration and status commands (spec/42_dispatcher.md R236 to R241). None issues a WE request. -/

namespace Sys2Proof.Machine

/-- SET_TARGET (R236): a no-op. -/
def execSetTarget (s : State) : Host.Outcome State Fault Refusal := .next (s.respond .ok [])

/-- SET_VDD (R237): one byte of the options image; the value is not checked. -/
def execSetVdd (vdd : Byte) (s : State) : Host.Outcome State Fault Refusal :=
  .next ((s.setOption Config.vddOffset vdd).respond .ok [])

/-- GET_BDM_STATUS (R238): the power input is sampled, the status word is returned big-endian. -/
def execGetBdmStatus (s : State) : Host.Outcome State Fault Refusal :=
  .next (s.popPower.respond .ok (halfBytes (statusWord s.cable.speedMode s.powerSample)))

/-- The seven payload bytes of GET_CAPABILITIES (R239, D30). -/
def capabilityBytes : List Byte :=
  halfBytes Config.capabilityVector ++ halfBytes (BitVec.ofNat 16 maxCommandSize) ++
    [Config.versionTriple.1, Config.versionTriple.2.1, Config.versionTriple.2.2]

/-- GET_CAPABILITIES (R239). -/
def execGetCapabilities (s : State) : Host.Outcome State Fault Refusal := .next (s.respond .ok capabilityBytes)

/-- SET_OPTIONS for an image of `size` bytes (R240): a truncated image is refused whole; bytes past it are ignored. -/
def setOptionsOf (size : Nat) (params : List Byte) (s : State) : State :=
  if params.length < size then s.respondErr .illegalParams 0 else (s.setOptions (params.take size)).respond .ok []

/-- SET_OPTIONS (R240). -/
def execSetOptions (params : List Byte) (s : State) : Host.Outcome State Fault Refusal :=
  .next (setOptionsOf optionsSize params s)

/-- CONTROL_PINS (R241): a stub; no pin is driven. -/
def execControlPins (s : State) : Host.Outcome State Fault Refusal := .next (s.respond .ok [0x00, 0x00])

end Sys2Proof.Machine
end

