-- ==== Sys2Proof/Machine/HostMem.lean ====
section
/-! DEFINITION. The memory commands (spec/42_dispatcher.md R258 to R260): one byte transaction per byte, in ascending
index order (spec/20_memory.md R73), at addresses modulo 2^16 (R64), stopping at the first failure. -/

namespace Sys2Proof.Machine

/-- The bytes of WRITE_MEM from index `i`, address `a` on (R258). -/
def writeBytes : Nat → Half → List Byte → State → State × Reply Unit
  | _, _, [], s => (s, .ok ())
  | i, a, d :: ds, s =>
    match memWrite a d (s.setMemPos i a) with
    | (s1, .err S) => (s1, .err S)
    | (s1, .ok _) => writeBytes (i + 1) (a + 1) ds s1

/-- The `n` bytes of READ_MEM from index `i`, address `a` on, after the bytes `got` (R259). -/
def readBytes : Nat → Nat → Half → List Byte → State → State × Reply (List Byte)
  | 0, _, _, got, s => (s, .ok got)
  | n + 1, i, a, got, s =>
    match memRead a (s.setMemPos i a) with
    | (s1, .err S) => (s1, .err S)
    | (s1, .ok r) => readBytes n (i + 1) (a + 1) (got ++ [r.toHalf.extractLsb' 0 8]) s1

/-- WRITE_MEM (R258). -/
def writeMem (mode count : Byte) (addr : Half) (data : List Byte) (s : State) : State :=
  match memChecks .write mode count.toNat data.length with
  | .err S => s.respondErr S 0
  | .ok _ => answer 0 (fun _ => []) (writeBytes 0 addr (data.take count.toNat) s)

@[inherit_doc writeMem]
def execWriteMem (mode count : Byte) (addr : Half) (data : List Byte) (s : State) :
    Host.Outcome State Fault Refusal := .next (writeMem mode count addr data s)

/-- READ_MEM (R259): refused before its first transaction it has a 1-byte response; failing at a transaction, one of
`1 + count` bytes (R234). -/
def readMem (mode count : Byte) (addr : Half) (s : State) : State :=
  match memChecks .read mode count.toNat 0 with
  | .err S => s.respondErr S 0
  | .ok _ => answer count.toNat id (readBytes count.toNat 0 addr [] s)

@[inherit_doc readMem]
def execReadMem (mode count : Byte) (addr : Half) (s : State) : Host.Outcome State Fault Refusal :=
  .next (readMem mode count addr s)

end Sys2Proof.Machine
end

