-- ==== Sys2Proof/Machine/HostSpeed.lean ====
section
/-! DEFINITION. Connection and speed (spec/42_dispatcher.md R242 to R244). -/

namespace Sys2Proof.Machine

/-- CONNECT's use of a synchronize's outcome (R242): `C.speedMode` is SYNC after a success, NONE after a failure. -/
def connectWith (p : State × Reply Rat) : State :=
  match p.2 with
  | .ok _ => (p.1.setSpeedMode .sync).respond .ok []
  | .err S => (p.1.setSpeedMode .none).respondErr S 0

/-- CONNECT (R242): it measures whatever `E.clockKnown` is. -/
def execConnect (s : State) : Host.Outcome State Fault Refusal := .next (connectWith (synchronize s))

/-- The host's sync length in the block's tick basis: division by HOST_TICK_FACTOR (R243, D26). -/
def ticksOfHost (h : Half) : Half := BitVec.ofNat 16 (h.toNat / hostTickFactor)

/-- The stored tick count in the host's basis, modulo 2^16 (R244, D26). -/
def ticksToHost (t : Half) : Half := BitVec.ofNat 16 (t.toNat * hostTickFactor)

/-- SET_SPEED (R243): it writes the sync length and the speed mode, and no engine flag (D28). -/
def execSetSpeed (h : Half) (s : State) : Host.Outcome State Fault Refusal :=
  .next (((s.setSyncLength (ticksOfHost h)).setSpeedMode .user).respond .ok [])

/-- GET_SPEED (R244). -/
def execGetSpeed (s : State) : Host.Outcome State Fault Refusal :=
  .next (s.respond .ok (halfBytes (ticksToHost s.eng.syncTicks)))

end Sys2Proof.Machine
end

