-- ==== Sys2Proof/Machine/HostTarget.lean ====
section
/-! DEFINITION. Target status and control, execution control and registers (spec/42_dispatcher.md R245 to R257). -/

namespace Sys2Proof.Machine

/-- A host command that is one BDM command without a payload. -/
def commandOnly (o : BdmOp) (args : List Nat) (s : State) : State := answer 0 (fun _ => []) (bdmCmd o.code args s)

/-- A host command that is one BDM command whose result is its 4-byte payload (R245, R254, R257). -/
def commandRead (o : BdmOp) (s : State) : State := answer 4 EngineResult.payload4 (bdmCmd o.code [] s)

/-- READ_STATUS_REG (R245). -/
def execReadStatusReg (s : State) : Host.Outcome State Fault Refusal := .next (commandRead .readStatus s)

/-- WRITE_CONTROL_REG (R246): bits 31..8 of the value are ignored. -/
def execWriteControlReg (v : Word) (s : State) : Host.Outcome State Fault Refusal :=
  .next (commandOnly .writeControl [(v.extractLsb' 0 8).toNat] s)

/-- `softReset(mode)` over its sequence (R249): abort at the first failure; `E.clockKnown <- 0` whatever the outcome. -/
def softReset : List BdmCall → State → State × Reply Unit
  | [], s => (s.clearClock, .ok ())
  | c :: cs, s =>
    match bdmCmd c.op.code c.args s with
    | (s1, .err S) => (s1.clearClock, .err S)
    | (s1, .ok _) => softReset cs s1

/-- TARGET_RESET with the sequences of a software reset given (R247 to R249). -/
def targetResetWith (sequence : ResetMode → List BdmCall) (m : Byte) (s : State) : State :=
  match decodeReset m with
  | .err S => s.respondErr S 0
  | .ok mode => answer 0 (fun _ => []) (softReset (sequence mode) s)

/-- TARGET_RESET (R247). -/
def execTargetReset (m : Byte) (s : State) : Host.Outcome State Fault Refusal :=
  .next (targetResetWith Config.softResetSequence m s)

/-- TARGET_STEP (R250): TRACE1. -/
def execTargetStep (s : State) : Host.Outcome State Fault Refusal := .next (commandOnly .trace1 [] s)

/-- TARGET_GO (R251): GO. -/
def execTargetGo (s : State) : Host.Outcome State Fault Refusal := .next (commandOnly .go [] s)

/-- TARGET_HALT (R252): BACKGROUND. -/
def execTargetHalt (s : State) : Host.Outcome State Fault Refusal := .next (commandOnly .background [] s)

/-- WRITE_REG (R253): an unknown id fails before any transaction; value bits above the register's width are ignored. -/
def writeReg (id : Half) (v : Word) (s : State) : State :=
  match regDecode id with
  | .err S => s.respondErr S 0
  | .ok r => commandOnly r.writeOp [v.toNat % 2 ^ r.width] s

@[inherit_doc writeReg]
def execWriteReg (id : Half) (v : Word) (s : State) : Host.Outcome State Fault Refusal := .next (writeReg id v s)

/-- READ_REG (R254): the value is zero-extended into four bytes. -/
def readReg (id : Half) (s : State) : State :=
  match regDecode id with
  | .err S => s.respondErr S 4
  | .ok r => commandRead r.readOp s

@[inherit_doc readReg]
def execReadReg (id : Half) (s : State) : Host.Outcome State Fault Refusal := .next (readReg id s)

/-- WRITE_DREG (R256): the id is not checked; bits 31..16 of the value are ignored. -/
def execWriteDreg (_id : Half) (v : Word) (s : State) : Host.Outcome State Fault Refusal :=
  .next (commandOnly .writeBkpt [(v.extractLsb' 0 16).toNat] s)

/-- READ_DREG (R257): the id is not checked. -/
def execReadDreg (_id : Half) (s : State) : Host.Outcome State Fault Refusal := .next (commandRead .readBkpt s)

end Sys2Proof.Machine
end

