-- ==== Sys2Proof/Machine/Dispatch.lean ====
section
/-! DEFINITION. The meaning of every instruction: one arm per row of spec/opcode_table.json. -/

namespace Sys2Proof.Machine

def exec (i : Instr) (s : State) : Host.Outcome State Fault Refusal :=
  match i with
  | .ackEnable => Sys2Proof.Machine.execAckEnable s
  | .ackDisabled => Sys2Proof.Machine.execAckDisabled s
  | .background => Sys2Proof.Machine.execBackground s
  | .go => Sys2Proof.Machine.execGo s
  | .trace1 => Sys2Proof.Machine.execTrace1 s
  | .taggo => Sys2Proof.Machine.execTaggo s
  | .readA => Sys2Proof.Machine.execReadA s
  | .readCcr => Sys2Proof.Machine.execReadCcr s
  | .readPc => Sys2Proof.Machine.execReadPc s
  | .readHx => Sys2Proof.Machine.execReadHx s
  | .readSp => Sys2Proof.Machine.execReadSp s
  | .readNext => Sys2Proof.Machine.execReadNext s
  | .readNextWs => Sys2Proof.Machine.execReadNextWs s
  | .writeA d => Sys2Proof.Machine.execWriteA d s
  | .writeCcr d => Sys2Proof.Machine.execWriteCcr d s
  | .writePc v => Sys2Proof.Machine.execWritePc v s
  | .writeHx v => Sys2Proof.Machine.execWriteHx v s
  | .writeSp v => Sys2Proof.Machine.execWriteSp v s
  | .writeNext d => Sys2Proof.Machine.execWriteNext d s
  | .writeNextWs d => Sys2Proof.Machine.execWriteNextWs d s
  | .readStatus => Sys2Proof.Machine.execReadStatus s
  | .writeControl d => Sys2Proof.Machine.execWriteControl d s
  | .readByte a => Sys2Proof.Machine.execReadByte a s
  | .readByteWs a => Sys2Proof.Machine.execReadByteWs a s
  | .readLast => Sys2Proof.Machine.execReadLast s
  | .writeByte a d => Sys2Proof.Machine.execWriteByte a d s
  | .writeByteWs a d => Sys2Proof.Machine.execWriteByteWs a d s
  | .readBkpt => Sys2Proof.Machine.execReadBkpt s
  | .writeBkpt v => Sys2Proof.Machine.execWriteBkpt v s
  | .setTarget => Sys2Proof.Machine.execSetTarget s
  | .setVdd vdd => Sys2Proof.Machine.execSetVdd vdd s
  | .getBdmStatus => Sys2Proof.Machine.execGetBdmStatus s
  | .getCapabilities => Sys2Proof.Machine.execGetCapabilities s
  | .setOptions params => Sys2Proof.Machine.execSetOptions params s
  | .controlPins => Sys2Proof.Machine.execControlPins s
  | .connect => Sys2Proof.Machine.execConnect s
  | .setSpeed h => Sys2Proof.Machine.execSetSpeed h s
  | .getSpeed => Sys2Proof.Machine.execGetSpeed s
  | .readStatusReg => Sys2Proof.Machine.execReadStatusReg s
  | .writeControlReg v => Sys2Proof.Machine.execWriteControlReg v s
  | .targetReset m => Sys2Proof.Machine.execTargetReset m s
  | .targetStep => Sys2Proof.Machine.execTargetStep s
  | .targetGo => Sys2Proof.Machine.execTargetGo s
  | .targetHalt => Sys2Proof.Machine.execTargetHalt s
  | .writeReg id v => Sys2Proof.Machine.execWriteReg id v s
  | .readReg id => Sys2Proof.Machine.execReadReg id s
  | .writeDreg id v => Sys2Proof.Machine.execWriteDreg id v s
  | .readDreg id => Sys2Proof.Machine.execReadDreg id s
  | .writeMem mode count addr data => Sys2Proof.Machine.execWriteMem mode count addr data s
  | .readMem mode count addr => Sys2Proof.Machine.execReadMem mode count addr s

end Sys2Proof.Machine
end

