-- ==== Sys2Proof/Machine/Fetch.lean ====
section
/-! DEFINITION. What the block does next (spec/42_dispatcher.md R230, spec/40_engine_core.md R151, R153): out of
SEQ_IDLE the sequencer moves; in SEQ_IDLE the next request is taken, and a request that is no instruction gets its
answer here. -/

namespace Sys2Proof.Machine

/-- What a step has before it. -/
inductive Fetched where
  /-- An instruction to run, on the state that has taken its request. -/
  | run (i : Instr) (s : State)
  /-- The step is over: its next state. -/
  | settled (s : State)
  /-- A fault. -/
  | fault (f : Fault)
  /-- A refusal. -/
  | refused (r : Refusal)
  deriving DecidableEq, Repr

/-- The answer to a frame that is no instruction: one status byte for R231 and R232, the command's fixed length for
R233 (R234); a host that breaks its duty has no move (R346). -/
def rejectFrame (e : DecodeError) (s : State) : Fetched :=
  match e with
  | .hostDutyBroken => .refused .hostDutyBroken
  | .badSize => .settled (s.respondErr .fail 0)
  | .unknownOpcode _ => .settled (s.respondErr .fail 0)
  | .shortParams o => .settled (s.respondErr .illegalParams o.payloadLen)
  | .unknownBdm _ => .settled (s.respondErr .fail 0)
  | .truncatedBdm _ => .settled (s.respondErr .fail 0)

/-- The answer to a BDM word that is no instruction: ILLEGAL_COMMAND for an opcode outside the 29 (R182). A word of no bytes
gets it too, as the byte 0x00 would: DESIGN CHOICE (notes/assumptions/20.md). -/
def rejectBdm (e : DecodeError) (s : State) : Fetched :=
  match e with
  | .truncatedBdm o => .refused (.truncatedBdmWord o)
  | .unknownBdm _ => .settled (s.pushResult (.err .illegalCommand))
  | .hostDutyBroken => .settled (s.pushResult (.err .illegalCommand))
  | .badSize => .settled (s.pushResult (.err .illegalCommand))
  | .unknownOpcode _ => .settled (s.pushResult (.err .illegalCommand))
  | .shortParams _ => .settled (s.pushResult (.err .illegalCommand))

/-- Take one request. DESIGN CHOICE (notes/assumptions/21.md): a bare executeTransaction is taken with any opcode byte; R140 and
R142 check none, and the ILLEGAL_COMMAND of R95 is `bdmCmd`'s (R182, R314). -/
def fetchInput (inp : Input) (s : State) : Fetched :=
  match inp with
  | .frame bytes =>
    match decodeFrame bytes with
    | .ok i => .run i (s.recordFrame bytes)
    | .error e => rejectFrame e (s.recordFrame bytes)
  | .bdm bytes =>
    match decodeBdm bytes with
    | .ok (i, _) => .run i s
    | .error e => rejectBdm e s
  | .synchronize => .settled (startSynchronize s)
  | .transaction op P nt nr =>
    if transactionPre P nt nr then .settled (startTransaction op P nt nr s) else .fault .preconditionViolation

/-- `s` without the request at the head of its inbox. -/
def State.popInput (s : State) : State := { s with io := { s.io with inbox := s.io.inbox.tail } }

/-- In SEQ_IDLE: take the next request; with none there the block waits and nothing changes (R17, R329). -/
def fetchIdle (s : State) : Fetched :=
  match s.io.inbox with
  | [] => .settled s
  | inp :: _ => fetchInput inp s.popInput

/-- What the next step has before it (R153: nothing is taken while an engine operation is in progress). -/
def fetch (s : State) : Fetched := if s.eng.seq = .idle then fetchIdle s else .settled (sequencerStep s)

/-- `s` with a request placed where the next step takes it, the sequencer idle. -/
def State.placeInput (inp : Input) (s : State) : State :=
  { s with eng := { s.eng with seq := .idle }, io := { s.io with inbox := inp :: s.io.inbox } }

end Sys2Proof.Machine
end

