-- ==== Sys2Proof/Machine/Step.lean ====
section
/-! DEFINITION. One step: what `fetch` finds, run. -/

namespace Sys2Proof.Machine

/-- One step of the block. -/
def step (s : State) : Host.Outcome State Fault Refusal :=
  match fetch s with
  | .run i t => exec i t
  | .settled t => .next t
  | .fault f => .fault f
  | .refused r => .refused r

/-- `s` with the instruction of a word of spec/opcode_table.json as the next request (notes/assumptions/6.md). -/
def State.withFetchWord (s : State) (nbits w : Nat) : State := s.placeInput (tableInput nbits w)

end Sys2Proof.Machine
end

