-- ==== Sys2Proof/Safety.lean ====
section
/-! DEFINITION. What a run of the block is held to: the invariants over the engine state (spec/10_state.md R37), the
guarantees over the request trace (spec/40_engine_core.md R167), and the words the statements use for a state before and
after one transaction. -/

namespace Sys2Proof.Machine

/-- `n` steps, one after another, ending at the first fault or refusal. -/
def stepMany : Nat → State → Host.Outcome State Fault Refusal
  | 0, s => .next s
  | n + 1, s =>
    match step s with
    | .next t => stepMany n t
    | .fault f => .fault f
    | .refused r => .refused r

/-! States before a transaction -/

/-- The "warm engine" of spec/41_bdm_commands.md: claimed, clock known, transaction program loaded. -/
structure Warm (s : State) : Prop where
  claimed : s.eng.claimed = true
  clockKnown : s.eng.clockKnown = true
  progLoaded : s.eng.progLoaded = true

/-- The WE will answer the next `n` waits, and every answer written down is a completion whose word is also a valid tick
count (the WE answers of R319). -/
structure Obliging (n : Nat) (s : State) : Prop where
  enough : n ≤ s.io.weAnswers.length
  valid : ∀ a ∈ s.io.weAnswers, ∃ w f, a = .done w ∧ tickFrequency w = some f

/-! States after a transaction, as the rules give them -/

/-- `s` after WE_CLAIM where it was not claimed (R130). -/
def claimEvents (s : State) : List WeEvent := if s.eng.claimed then [] else [.request .claim]

/-- The program load of a transaction whose clock is known (R141). -/
def loadEvents (s : State) : List WeEvent :=
  if s.eng.progLoaded then [] else [.request (.load .txn (clockDivider s.eng.fPio))]

/-- The requests of a synchronize with its answer (R131). -/
def syncEvents (s : State) (a : WeAnswer) : List WeEvent :=
  claimEvents s ++ [.request (.load .sync divSync), .request .sync, .answer a]

/-- The WE_SHIFT of a transaction with its answer (R144). -/
def shiftEvents (tx : Word) (nt nr : Nat) (a : WeAnswer) : List WeEvent :=
  [.request (.shift tx (BitVec.ofNat 6 nt) (BitVec.ofNat 6 nr)), .answer a]

/-- `s` after a transaction on a warm engine that the WE answers with Done(w): one WE_SHIFT, the latches with any value
(R26), nothing else. -/
def warmShift (tx : Word) (nt nr : Nat) (w : Word) (s : State) : State :=
  State.releaseLatches { s.popAnswer with
    we := { s.we with outstanding := none, rxChannel := none }
    io := { s.popAnswer.io with trace := s.io.trace ++ shiftEvents tx nt nr (.done w) } }

/-- `s` after a transaction on a warm engine that times out: the same WE_SHIFT, and both flags cleared (R145). -/
def warmTimeout (tx : Word) (nt nr : Nat) (s : State) : State :=
  State.releaseLatches { s.popAnswer with
    eng := { s.eng with progLoaded := false, clockKnown := false }
    we := { s.we with outstanding := none, rxChannel := none }
    io := { s.popAnswer.io with trace := s.io.trace ++ shiftEvents tx nt nr .timeout } }

/-- `s` after a transaction whose clock is known, `a` being the WE's answer to its shift: claim and load where they are
missing, one WE_SHIFT (R140, R141, R144). After a completion both flags stand; after a Timeout neither does (R145). -/
def knownShift (tx : Word) (nt nr : Nat) (a : WeAnswer) (s : State) : State :=
  State.releaseLatches { s.popAnswer with
    eng := { s.eng with claimed := true, progLoaded := a != .timeout, clockKnown := a != .timeout }
    we :=
      { program := if s.eng.progLoaded then s.we.program else some .txn
        divider := if s.eng.progLoaded then s.we.divider else clockDivider s.eng.fPio
        outstanding := none
        rxChannel := none }
    io := { s.popAnswer.io with trace := s.io.trace ++ claimEvents s ++ loadEvents s ++ shiftEvents tx nt nr a } }

/-- `s` in the middle of a transaction, after its implicit synchronize was answered with the accepted tick count `v` of
frequency `f` (R131, R133, R138). -/
def afterMeasure (v : Word) (f : Rat) (s : State) : State :=
  { s.popAnswer with
    eng :=
      { s.eng with
        claimed := true, progLoaded := false, clockKnown := true, fPio := f, syncTicks := v.extractLsb' 0 16 }
    we := { program := some .sync, divider := divSync, outstanding := none, rxChannel := none }
    io := { s.popAnswer.io with trace := s.io.trace ++ syncEvents s (.done v) } }

/-- `s` after a transaction whose implicit synchronize failed: nothing was shifted, and both flags are 0 (R137, R327). -/
def afterSyncFailure (s : State) : State :=
  State.releaseLatches { s.popAnswer with
    eng := { s.eng with claimed := true, progLoaded := false, clockKnown := false }
    we := { program := some .sync, divider := divSync, outstanding := none, rxChannel := none }
    io := { s.popAnswer.io with trace := s.io.trace ++ syncEvents s s.nextAnswer } }

/-! BDM commands as calls, and the host commands that carry one -/

/-- The word a BDM command shifts: its encoding, read MSB-first and right-aligned (R60, R91, R96). -/
def shiftWord (i : Instr) : Word := BitVec.ofNat 32 ((encode i).foldl (fun n b => n * 256 + b.toNat) 0)

/-- The BDM command a call of the wrapper is, each argument truncated to its field (R180). -/
def callInstr (c : BdmCall) : Instr :=
  let byte (k : Nat) : Byte := BitVec.ofNat 8 (c.args.getD k 0)
  let half (k : Nat) : Half := BitVec.ofNat 16 (c.args.getD k 0)
  match c.op with
  | .ackEnable => .ackEnable
  | .ackDisabled => .ackDisabled
  | .background => .background
  | .go => .go
  | .trace1 => .trace1
  | .taggo => .taggo
  | .readA => .readA
  | .readCcr => .readCcr
  | .readPc => .readPc
  | .readHx => .readHx
  | .readSp => .readSp
  | .readNext => .readNext
  | .readNextWs => .readNextWs
  | .writeA => .writeA (byte 0)
  | .writeCcr => .writeCcr (byte 0)
  | .writePc => .writePc (half 0)
  | .writeHx => .writeHx (half 0)
  | .writeSp => .writeSp (half 0)
  | .writeNext => .writeNext (byte 0)
  | .writeNextWs => .writeNextWs (byte 0)
  | .readStatus => .readStatus
  | .writeControl => .writeControl (byte 0)
  | .readByte => .readByte (half 0)
  | .readByteWs => .readByteWs (half 0)
  | .readLast => .readLast
  | .writeByte => .writeByte (half 0) (byte 1)
  | .writeByteWs => .writeByteWs (half 0) (byte 1)
  | .readBkpt => .readBkpt
  | .writeBkpt => .writeBkpt (half 0)

/-- The WE_SHIFT of a call with its answer. -/
def callEvents (c : BdmCall) (a : WeAnswer) : List WeEvent :=
  shiftEvents (shiftWord (callInstr c)) c.op.format.txBits c.op.format.rxBits a

/-- A result as the 4-byte payload of a read (R245, R254, R257): an 8-bit or 16-bit value, zero-extended, big-endian. -/
def readPayload : EngineResult → List Byte
  | .data b => [0x00, 0x00, 0x00, b]
  | .status b => [0x00, 0x00, 0x00, b]
  | .value v => [0x00, 0x00, v.extractLsb' 8 8, v.extractLsb' 0 8]
  | _ => []

/-- From `s`, the host command `host` is the BDM command `bdm` with a response in place of the caller's result: the same
state (so the same trace, flags and measurement), then OK with the result's payload, or the status of its failure with `n`
payload bytes of any value (R234, R316, R325). -/
def CarriesBdm (host bdm : Instr) (n : Nat) (payload : EngineResult → List Byte) (s : State) : Prop :=
  ∃ (t : State) (r : Reply EngineResult),
    exec bdm s = .next t ∧ t.io.results = s.io.results ++ [r] ∧
      exec host s =
        .next
          (let u : State := { t with io := { t.io with results := s.io.results } }
           match r with
           | .ok v => u.respond .ok (payload v)
           | .err S => u.respondErr S n)

/-- One BDM command asked for at the engine interface: the state after it without the result, and the result. Every BDM
command has a next state and exactly one result (R180, R235). -/
def called (i : Instr) (s : State) : State × Reply EngineResult :=
  match exec i s with
  | .next t => ({ t with io := { t.io with results := s.io.results } }, t.io.results.getLastD (.ok .none))
  | _ => (s, .ok .none)

/-- BDM commands asked for one after another, ending at the first failure: the state after them, and the results or the
status of the failure. -/
def calledAll : List Instr → State → State × Reply (List EngineResult)
  | [], s => (s, .ok [])
  | i :: is, s =>
    match called i s with
    | (t, .err S) => (t, .err S)
    | (t, .ok v) =>
      match calledAll is t with
      | (u, .ok vs) => (u, .ok (v :: vs))
      | (u, .err S) => (u, .err S)

/-- From `s`, the host command `host` is the BDM commands `calls` in order, ending at the first failure, with one response:
OK with the payload of their results, or the status of the failure with `n` payload bytes of any value (R105, R234). The
position inside a memory command (R27 (c)) is left open. -/
def CarriesAll (host : Instr) (calls : List Instr) (n : Nat) (payload : List EngineResult → List Byte) (s : State) : Prop :=
  ∃ t : State,
    exec host s = .next t ∧
      t.setMemPos 0 0 =
        (match (calledAll calls s).2 with
          | .ok vs => (calledAll calls s).1.respond .ok (payload vs)
          | .err S => (calledAll calls s).1.respondErr S n).setMemPos 0 0

/-- The bytes that reads of a byte returned (R259). -/
def dataBytes (rs : List EngineResult) : List Byte :=
  rs.flatMap fun r => match r with | .data b => [b] | _ => []

/-! Commands of several transactions, from any state -/

/-- From `s` the engine comes to its first WE_SHIFT: the clock is known, or the WE's first answer is an accepted tick count
for the implicit synchronize. `pre` are the events before that WE_SHIFT, `f` and `ticks` the measurement it runs with, and
`answers` the WE's answers from it on (R140, R141). -/
def ReachesShift (s : State) (pre : List WeEvent) (f : Rat) (ticks : Half) (answers : List WeAnswer) : Prop :=
  (s.eng.clockKnown = true ∧ pre = claimEvents s ++ loadEvents s ∧ f = s.eng.fPio ∧ ticks = s.eng.syncTicks ∧
      s.io.weAnswers = answers) ∨
    s.eng.clockKnown = false ∧
      ∃ v : Word,
        s.io.weAnswers = .done v :: answers ∧ tickFrequency v = some f ∧ ticks = v.extractLsb' 0 16 ∧
          pre = syncEvents s (.done v) ++ [.request (.load .txn (clockDivider f))]

/-- The WE's program memory and divider after transactions from `s` with the measurement `f`: what was loaded where no load
was needed, PROG_TXN with `f`'s divider otherwise (R141). -/
def shiftPort (s : State) (f : Rat) : WePort :=
  let kept := s.eng.clockKnown && s.eng.progLoaded
  { program := if kept then s.we.program else some .txn
    divider := if kept then s.we.divider else clockDivider f
    outstanding := none
    rxChannel := none }

/-- What a memory command leaves alone whatever happens: cableStatus, the options, the command frame, the host's requests, the
power samples, the callers' results and the sequencer's position. -/
structure MemoryFrame (s t : State) : Prop where
  cable : t.cable = s.cable
  options : t.options = s.options
  cmdFrame : t.disp.cmdFrame = s.disp.cmdFrame
  inbox : t.io.inbox = s.io.inbox
  power : t.io.powerSamples = s.io.powerSamples
  results : t.io.results = s.io.results
  seq : t.eng.seq = s.eng.seq

/-! The engine invariants -/

/-- What the sequencer's position says of the flags (R151). -/
def positionInv (s : State) : Prop :=
  match s.eng.seq with
  | .idle => s.we.outstanding = none
  | .claim => s.we.outstanding = none
  | .syncLoad => s.we.outstanding = none ∧ s.eng.claimed = true
  | .syncWait => s.we.outstanding = some .sync ∧ s.eng.claimed = true ∧ s.eng.progLoaded = false
  | .txnLoad => s.we.outstanding = none ∧ s.eng.claimed = true ∧ s.eng.clockKnown = true
  | .shift => s.we.outstanding = none ∧ s.eng.claimed = true ∧ s.eng.clockKnown = true ∧ s.eng.progLoaded = true
  | .shiftWait =>
    (∃ tx nt nr, s.we.outstanding = some (.shift tx nt nr)) ∧ s.eng.claimed = true ∧ s.eng.clockKnown = true ∧
      s.eng.progLoaded = true

/-- The invariants of R37, (I1) to (I5), with what they need while an operation is in progress. -/
structure EngineInv (s : State) : Prop where
  /-- (I1) -/
  claimed : s.eng.progLoaded = true → s.eng.claimed = true
  /-- (I2) -/
  loaded : s.eng.progLoaded = true →
    0 < s.eng.fPio ∧ s.we.program = some .txn ∧ s.we.divider = clockDivider s.eng.fPio
  /-- (I3) -/
  known : s.eng.clockKnown = true → 0 < s.eng.fPio ∧ dividerLegal (clockDivider s.eng.fPio) = true
  /-- (I4), as far as one state shows it: the frequency is 0 or that of an accepted tick count. -/
  measured : s.eng.fPio = 0 ∨ ∃ w, tickFrequency w = some s.eng.fPio
  /-- (I5), and the flags at each position of the sequencer. -/
  position : positionInv s

/-! The request trace -/

/-- What an observer of the request trace keeps. -/
structure TraceView where
  /-- WE_CLAIM has been seen. -/
  claimed : Bool
  /-- The program and divider of the last WE_LOAD. -/
  loaded : Option (Prog × Rat)
  /-- The last request. -/
  last : Option WeRequest
  /-- The last request is a WE_SYNC or WE_SHIFT that has no answer yet. -/
  waiting : Bool
  /-- The tick count of the last successful WE_SYNC. -/
  ticks : Option Word
  /-- The last answered WE_SYNC was a success. -/
  synced : Bool
  /-- PROG_TXN has been loaded since the last WE_SYNC. -/
  fresh : Bool
  deriving DecidableEq, Repr

/-- Before any request. -/
def TraceView.start : TraceView :=
  { claimed := false, loaded := none, last := none, waiting := false, ticks := none, synced := false, fresh := false }

/-- What the observer keeps after one more event. -/
def observe (v : TraceView) : WeEvent → TraceView
  | .request .claim => { v with claimed := true, last := some .claim }
  | .request (.load p d) => { v with loaded := some (p, d), last := some (.load p d), fresh := v.fresh || p = .txn }
  | .request .sync => { v with last := some .sync, waiting := true, fresh := false }
  | .request (.shift tx nt nr) => { v with last := some (.shift tx nt nr), waiting := true }
  | .answer a =>
    if v.last = some .sync then
      match syncOutcome a with
      | some (w, _) => { v with waiting := false, ticks := some w, synced := true }
      | none => { v with waiting := false, synced := false }
    else { v with waiting := false }

/-- The observer's view of a whole trace. -/
def viewOf (trace : List WeEvent) : TraceView := trace.foldl observe .start

/-- What R167 (and R153, R163: one request at a time, one answer per waiting request) lets come next.
(a) WE_CLAIM is the first request and comes once. (b) WE_SYNC directly follows WE_LOAD(PROG_SYNC, DIV_SYNC).
(c) PROG_TXN is loaded with Div(F(w)) for the w of the last successful WE_SYNC, and WE_SHIFT runs on PROG_TXN. (d) WE_SHIFT
follows a load of PROG_TXN made after the last WE_SYNC. (e) WE_SHIFT does not follow a failed WE_SYNC. -/
def admits (v : TraceView) : WeEvent → Prop
  | .request .claim => v.last = none
  | .request (.load .sync _) => v.claimed = true ∧ v.waiting = false
  | .request (.load .txn d) =>
    v.claimed = true ∧ v.waiting = false ∧ ∃ w, v.ticks = some w ∧ d = clockDivider (syncFrequency w.toNat)
  | .request .sync => v.claimed = true ∧ v.waiting = false ∧ v.last = some (.load .sync divSync)
  | .request (.shift _ _ _) =>
    v.claimed = true ∧ v.waiting = false ∧ (∃ d, v.loaded = some (.txn, d)) ∧ v.fresh = true ∧ v.synced = true
  | .answer _ => v.waiting = true

/-- Every event of a trace was admitted when it came. -/
def TraceOk (trace : List WeEvent) : Prop :=
  ∀ before e after, trace = before ++ e :: after → admits (viewOf before) e

/-- The trace keeps R167, and the state agrees with what an observer of the trace knows. -/
structure TraceInv (s : State) : Prop where
  ok : TraceOk s.io.trace
  claimed : (viewOf s.io.trace).claimed = s.eng.claimed
  unclaimed : s.eng.claimed = false → (viewOf s.io.trace).last = none
  program : (viewOf s.io.trace).loaded.map Prod.fst = s.we.program
  divider : ∀ p d, (viewOf s.io.trace).loaded = some (p, d) → s.we.divider = d
  progLoaded : s.eng.progLoaded = true → s.we.program = some .txn ∧ (viewOf s.io.trace).fresh = true
  clockKnown : s.eng.clockKnown = true → (viewOf s.io.trace).synced = true
  fPio : s.eng.fPio = match (viewOf s.io.trace).ticks with | none => 0 | some w => syncFrequency w.toNat
  waiting : (viewOf s.io.trace).waiting = s.we.outstanding.isSome
  pending : s.we.outstanding.isSome = true → (viewOf s.io.trace).last = s.we.outstanding
  synced : (viewOf s.io.trace).synced = true → (viewOf s.io.trace).ticks.isSome = true
  position : positionInv s

/-- The requests of a piece of trace. -/
def requestsOf : List WeEvent → List WeRequest
  | [] => []
  | .request r :: es => r :: requestsOf es
  | .answer _ :: es => requestsOf es

/-! What a host command is held to -/

/-- The value checks of a host command that come before any engine operation (R323 level 4). -/
def checkOf : Instr → Reply Unit
  | .setOptions params => if params.length < optionsSize then .err .illegalParams else .ok ()
  | .targetReset m => match decodeReset m with | .ok _ => .ok () | .err S => .err S
  | .writeReg id _ => match regDecode id with | .ok _ => .ok () | .err S => .err S
  | .readReg id => match regDecode id with | .ok _ => .ok () | .err S => .err S
  | .writeMem mode count _ data => memChecks .write mode count.toNat data.length
  | .readMem mode count _ => memChecks .read mode count.toNat 0
  | _ => .ok ()

/-- payloadLen (R99), with READ_MEM's count. -/
def payloadLenOf : Instr → Nat
  | .readMem _ count _ => count.toNat
  | i => match i.hostOp with | some o => o.payloadLen | none => 0

/-- The payload length of a response with status `S` (R234): the command's own, but nothing after the status byte of a
READ_MEM that its checks refuse (R259). -/
def respPayloadLen (i : Instr) : Nat :=
  match i, checkOf i with
  | .readMem _ _ _, .err _ => 0
  | i, _ => payloadLenOf i

/-- The SOFT_RESET_SEQUENCE a reset byte selects (R247, R249). -/
def resetSequenceOf (m : Byte) : List BdmCall :=
  match decodeReset m with
  | .ok mode => Config.softResetSequence mode
  | .err _ => []

/-- How many WE answers a host command waits for at most (R140, R242, R249, R258, R259). -/
def answersNeeded : Instr → Nat
  | .connect => 1
  | .writeMem _ count _ _ => count.toNat + 1
  | .readMem _ count _ => count.toNat + 1
  | .targetReset m => 2 * (resetSequenceOf m).length
  | _ => 2

/-- The bound on the WE requests of one command (R382). Where a reset sequence holds a GO or TAGGO, which clear the clock
inside it, the bound allows every command of the sequence its own synchronize and load (notes/assumptions/14.md). -/
def requestBound : Instr → Nat
  | .connect => 3
  | .writeMem _ count _ _ => 4 + count.toNat
  | .readMem _ count _ => 4 + count.toNat
  | .targetReset m =>
    if (resetSequenceOf m).any (fun c => clearsClock c.op) then 1 + 4 * (resetSequenceOf m).length
    else 4 + (resetSequenceOf m).length
  | _ => 5

end Sys2Proof.Machine
end

