-- ==== Sys2Proof/Certificates/Slice0/Obligations.lean ====
section
/-! DEFINITION. The statements for the provers. Each cites the rule of spec/ it formalises. `s` is any state, reachable or
not, unless an invariant is among the premises. `s.nextAnswer` is the answer the waveform engine gives next: one written
down in the state, or a free value. -/

open Sys2Proof Sys2Proof.Machine

/-! ## Encoding -/

/-- R91, R92, R94, R97, R99, R101: decoding an encoded well-formed instruction, BDM word or command frame, gives it back. -/
def Obligations.EncodingDecodesBack : Prop := ∀ i : Instr, i.wf = true → decodeInput i.toInput = some i

/-- Seven words of the spec's own examples and vectors (S1, S7 twice, S8, V6, H8 and H16 of spec/95_test_vectors.md), and one,
[0xE1, 0x12, 0x34], that stands in no vector and is worked out by hand from R92 (format B7) and R94 (opcode 0xE1). -/
def Obligations.SampleWordsDecode : Prop :=
  decodeBdm [0x4B, 0x12, 0x34] = .ok (.writePc 0x1234, []) ∧
    decodeBdm [0xC0, 0x00, 0x10, 0xAA] = .ok (.writeByte 0x0010 0xAA, []) ∧
    decodeBdm [0xE1, 0x12, 0x34] = .ok (.readByteWs 0x1234, []) ∧
    decodeBdm [0x18] = .ok (.taggo, []) ∧
    decodeFrame [0x08, 0x20, 0x00, 0x02, 0x00, 0x10, 0xAA, 0xBB] = .ok (.writeMem 0x00 2 0x0010 [0xAA, 0xBB]) ∧
    decodeFrame [0x04, 0x1B, 0x00, 0x0B] = .ok (.readReg 0x000B) ∧
    decodeFrame [0x08, 0x1A, 0x00, 0x0F, 0x00, 0x01, 0x10, 0xFF] = .ok (.writeReg 0x000F 0x000110FF) ∧
    decodeFrame [0x04, 0x10, 0xEA, 0x60] = .ok (.setSpeed 0xEA60)

/-- R92, R94, R95, R101, R102: a byte selects a command exactly when it is that command's opcode; 227 byte values are no BDM
command and 235 no host command. -/
def Obligations.OpcodeMapsExact : Prop :=
  (∀ b o, bdmOpOf b = some o ↔ o.code = b) ∧ (∀ b o, hostOpOf b = some o ↔ o.code = b) ∧
    ((List.range 256).countP fun n => (bdmOpOf (BitVec.ofNat 8 n)).isNone) = 227 ∧
    ((List.range 256).countP fun n => (hostOpOf (BitVec.ofNat 8 n)).isNone) = 235

/-! ## Codec -/

/-- R290, R291: every character code and every nibble value, with the sentinel 0xFF for the others. -/
def Obligations.HexDigitTables : Prop :=
  (∀ c : Byte,
      (hexToNibble c).toNat =
        if 0x30 ≤ c.toNat ∧ c.toNat ≤ 0x39 then c.toNat - 0x30
        else if 0x41 ≤ c.toNat ∧ c.toNat ≤ 0x46 then c.toNat - 0x41 + 10
        else if 0x61 ≤ c.toNat ∧ c.toNat ≤ 0x66 then c.toNat - 0x61 + 10
        else 0xFF) ∧
    ∀ n : Byte,
      (nibbleToHex n).toNat =
        if n.toNat ≤ 9 then 0x30 + n.toNat else if n.toNat ≤ 15 then 0x41 + (n.toNat - 10) else 0xFF

/-- R292: the membership test is true exactly for the 29 opcodes of R94. -/
def Obligations.ValidityIsOpcodeMap : Prop :=
  (∀ b : Byte, isValidBdmCommand b = true ↔ ∃ o : BdmOp, o.code = b) ∧ validBdmBytes.length = 29

/-- R293, R294: the packed value is the sum of the bits at their weights, and more than 32 bits give (false, 0). -/
def Obligations.PackedValueIsWeightedSum : Prop :=
  ∀ bits : List Bool,
    (bits.length ≤ 32 →
      (packMsb bits).1 = true ∧ (packLsb bits).1 = true ∧
        (packMsb bits).2.toNat = ∑ i : Fin bits.length, bits[i].toNat * 2 ^ (bits.length - 1 - i.val) ∧
        (packLsb bits).2.toNat = ∑ i : Fin bits.length, bits[i].toNat * 2 ^ i.val) ∧
      (32 < bits.length → packMsb bits = (false, 0) ∧ packLsb bits = (false, 0))

/-- R291, R295: unpacking undoes packing for every bit array of at most 32 bits, in both bit orders; more than 32 bits are
refused; and a nibble's hex digit reads back as the nibble. -/
def Obligations.UnpackUndoesPack : Prop :=
  (∀ bits : List Bool, bits.length ≤ 32 →
      unpackMsb (packMsb bits).2 bits.length = (true, bits) ∧ unpackLsb (packLsb bits).2 bits.length = (true, bits)) ∧
    (∀ (v : Word) (n : Nat), 32 < n → (unpackMsb v n).1 = false ∧ (unpackLsb v n).1 = false) ∧
    ∀ n : Byte, n.toNat ≤ 15 → hexToNibble (nibbleToHex n) = n

/-- R296: a byte is two hex digits, the high nibble's first; two hex digits are the byte `h * 16 + l`; a pair with a
character that is no hex digit is refused; and the digits of a byte read back as the byte. -/
def Obligations.HexPairReadsByteBack : Prop :=
  (∀ b : Byte,
      byteToHex b =
          [nibbleToHex (BitVec.ofNat 8 (b.toNat / 16)), nibbleToHex (BitVec.ofNat 8 (b.toNat % 16))] ∧
        ∃ c1 c2, byteToHex b = [c1, c2] ∧ hexPairToByte c1 c2 = (true, b)) ∧
    ∀ c1 c2 : Byte,
      (hexToNibble c1 = 0xFF ∨ hexToNibble c2 = 0xFF → hexPairToByte c1 c2 = (false, 0)) ∧
        (hexToNibble c1 ≠ 0xFF → hexToNibble c2 ≠ 0xFF →
          ∃ v, hexPairToByte c1 c2 = (true, v) ∧ v.toNat = (hexToNibble c1).toNat * 16 + (hexToNibble c2).toNat)

/-- R297: the separators are space, tab, CR and LF; a token is never empty and holds none; a separator splits; a non-empty
string without separators is one token; and no other character is lost. -/
def Obligations.TokenizeSplitsAtSeparators : Prop :=
  (∀ c : Byte, isSeparator c = true ↔ c = 0x20 ∨ c = 0x09 ∨ c = 0x0D ∨ c = 0x0A) ∧
    (∀ s : List Byte, ∀ t ∈ tokenize s, t ≠ [] ∧ ∀ c ∈ t, isSeparator c = false) ∧
    (∀ (s t : List Byte) (c : Byte), isSeparator c = true → tokenize (s ++ c :: t) = tokenize s ++ tokenize t) ∧
    (∀ s : List Byte, s ≠ [] → (∀ c ∈ s, isSeparator c = false) → tokenize s = [s]) ∧
    ∀ s : List Byte, (tokenize s).flatten = s.filter fun c => !isSeparator c

/-- R298: one or more decimal digits, or one or more hex digits of either case after 0x or 0X, are read as their value when
that is below 2^32; every other token is refused. -/
def Obligations.ParseNumberReadsDigits : Prop :=
  (∀ ds : List Byte, ds ≠ [] → (∀ c ∈ ds, 0x30 ≤ c.toNat ∧ c.toNat ≤ 0x39) →
      parseNumber ds =
        (let v := ds.foldl (fun a c => a * 10 + (c.toNat - 0x30)) 0
         if v < 2 ^ 32 then (true, BitVec.ofNat 32 v) else (false, 0))) ∧
    (∀ (ds : List Byte) (x : Byte), ds ≠ [] → x = 0x78 ∨ x = 0x58 → (∀ c ∈ ds, hexToNibble c ≠ 0xFF) →
      parseNumber (0x30 :: x :: ds) =
        (let v := ds.foldl (fun a c => a * 16 + (hexToNibble c).toNat) 0
         if v < 2 ^ 32 then (true, BitVec.ofNat 32 v) else (false, 0))) ∧
    ∀ t : List Byte, ¬(t ≠ [] ∧ ∀ c ∈ t, 0x30 ≤ c.toNat ∧ c.toNat ≤ 0x39) →
      ¬(∃ (ds : List Byte) (x : Byte),
          t = 0x30 :: x :: ds ∧ ds ≠ [] ∧ (x = 0x78 ∨ x = 0x58) ∧ ∀ c ∈ ds, hexToNibble c ≠ 0xFF) →
      parseNumber t = (false, 0)

/-! ## Claim and synchronize -/

/-- R130: a claim is made once; with `E.claimed = 1` nothing is issued. -/
def Obligations.ClaimOnce : Prop :=
  ∀ s : State,
    (s.eng.claimed = false →
      ensureClaimed s =
        { s with
          eng := { s.eng with claimed := true }
          io := { s.io with trace := s.io.trace ++ [.request .claim] } }) ∧
      (s.eng.claimed = true → ensureClaimed s = s) ∧ ensureClaimed (ensureClaimed s) = ensureClaimed s

/-- R132, R136, R139 at the default parameters: F(w) = 128 000 000 / w, Div(F(w)) = 250 w / 256, DIV_SYNC = 62.5, a divider
is the quotient truncated to 8 fractional bits, and w = 1 is the only count up to 0xFFFF whose divider is out of range. -/
def Obligations.FrequencyAndDividerExact : Prop :=
  (∀ w : Nat, 1 ≤ w →
      syncFrequency w = 128000000 / (w : Rat) ∧ clockDivider (syncFrequency w) = 250 * (w : Rat) / 256) ∧
    divSync = 125 / 2 ∧ (∀ f : Rat, clockDivider f = (⌊125000000 / f * 256⌋ : Rat) / 256) ∧
    ∀ w : Nat, 1 ≤ w → w ≤ 0xFFFF →
      (¬(divMin ≤ clockDivider (syncFrequency w) ∧ clockDivider (syncFrequency w) ≤ divMax) ↔ w = 1)

/-- R135: a synchronize fails, with SYNC_TIMEOUT, exactly on a Timeout, on w = 0, on w > 0xFFFF and on a divider out of
range; on every other answer its result is F(w). -/
def Obligations.SyncFailsExactly : Prop :=
  ∀ s : State,
    ((synchronize s).2 = .err .syncTimeout ↔
        s.nextAnswer = .timeout ∨
          ∃ w : Word, s.nextAnswer = .done w ∧
            (w = 0 ∨ 0xFFFF < w.toNat ∨
              ¬(divMin ≤ clockDivider (syncFrequency w.toNat) ∧ clockDivider (syncFrequency w.toNat) ≤ divMax))) ∧
      ((synchronize s).2 = .err .syncTimeout ∨
        ∃ w : Word, s.nextAnswer = .done w ∧ (synchronize s).2 = .ok (syncFrequency w.toNat))

/-- R131, R133, R137, R138: what a synchronize asked for alone does, after a success and after a failure: its requests, the
registers it writes, and nothing else (the latches of R26 hold any value afterwards). -/
def Obligations.SynchronizeEffect : Prop :=
  ∀ s : State,
    (∀ (w : Word) (f : Rat), syncOutcome s.nextAnswer = some (w, f) →
      f = syncFrequency w.toNat ∧
        synchronize s =
          (State.releaseLatches { s.popAnswer with
              eng :=
                { s.eng with
                  claimed := true, progLoaded := false, clockKnown := true, fPio := syncFrequency w.toNat,
                  syncTicks := w.extractLsb' 0 16 }
              we := { s.we with program := some .sync, divider := divSync, outstanding := none, rxChannel := none }
              io :=
                { s.popAnswer.io with
                  trace :=
                    s.io.trace ++ (if s.eng.claimed then [] else [.request .claim]) ++
                      [.request (.load .sync divSync), .request .sync, .answer (.done w)] } },
            .ok (syncFrequency w.toNat))) ∧
      (syncOutcome s.nextAnswer = none →
        synchronize s =
          (State.releaseLatches { s.popAnswer with
              eng := { s.eng with claimed := true, progLoaded := false, clockKnown := false }
              we := { s.we with program := some .sync, divider := divSync, outstanding := none, rxChannel := none }
              io :=
                { s.popAnswer.io with
                  trace :=
                    s.io.trace ++ (if s.eng.claimed then [] else [.request .claim]) ++
                      [.request (.load .sync divSync), .request .sync, .answer s.nextAnswer] } },
            .err .syncTimeout))

/-! ## Transaction -/

/-- R140, R141, R143, R144, R146 with the clock known and the shift answered: claim and load where they are missing, one
WE_SHIFT of `zext_32(op ++ P)`, the result `w mod 2^nr`. `op` is any byte: that one outside the 29 opcodes of R94 is shifted
like any other is the model's choice (notes/assumptions/21.md). -/
def Obligations.TransactionClockKnown : Prop :=
  ∀ (op : Byte) (P nt nr : Nat) (s : State) (w : Word),
    8 ≤ nt → nt ≤ 32 → nr ≤ 32 → P < 2 ^ (nt - 8) → s.eng.clockKnown = true → s.nextAnswer = .done w →
    ∃ (t : State) (v tx : Word),
      executeTransaction op P nt nr s = .next (t, .ok v) ∧
        v.toNat = w.toNat % 2 ^ nr ∧ tx.toNat = op.toNat * 2 ^ (nt - 8) + P ∧
        t =
          State.releaseLatches { s.popAnswer with
            eng := { s.eng with claimed := true, progLoaded := true }
            we :=
              { s.we with
                program := if s.eng.progLoaded then s.we.program else some .txn
                divider := if s.eng.progLoaded then s.we.divider else clockDivider s.eng.fPio
                outstanding := none
                rxChannel := none }
            io :=
              { s.popAnswer.io with
                trace := s.io.trace ++ claimEvents s ++ loadEvents s ++ shiftEvents tx nt nr (.done w) } }

/-- R140 with the clock unknown: the synchronize comes first, its load of PROG_SYNC makes the load of PROG_TXN necessary
whatever was loaded before, and that load carries the new divider (R76, R141, R167 (d)). `op` is any byte: see
notes/assumptions/21.md for one outside the 29 opcodes, the model's choice. -/
def Obligations.TransactionClockUnknown : Prop :=
  ∀ (op : Byte) (P nt nr : Nat) (s : State) (v w : Word) (f : Rat),
    8 ≤ nt → nt ≤ 32 → nr ≤ 32 → P < 2 ^ (nt - 8) → s.eng.clockKnown = false →
    s.nextAnswer = .done v → tickFrequency v = some f → s.popAnswer.nextAnswer = .done w →
    ∃ (t : State) (r tx : Word),
      executeTransaction op P nt nr s = .next (t, .ok r) ∧
        r.toNat = w.toNat % 2 ^ nr ∧ tx.toNat = op.toNat * 2 ^ (nt - 8) + P ∧
        t =
          State.releaseLatches { s.popAnswer.popAnswer with
            eng :=
              { s.eng with
                claimed := true, clockKnown := true, progLoaded := true, fPio := f, syncTicks := v.extractLsb' 0 16 }
            we :=
              { s.we with program := some .txn, divider := clockDivider f, outstanding := none, rxChannel := none }
            io :=
              { s.popAnswer.popAnswer.io with
                trace :=
                  s.io.trace ++ syncEvents s (.done v) ++ [.request (.load .txn (clockDivider f))] ++
                    shiftEvents tx nt nr (.done w) } }

/-- R140, R327: when the implicit synchronize fails, nothing is shifted and the outer transaction ends with SYNC_TIMEOUT. `op`
is any byte: see notes/assumptions/21.md for one outside the 29 opcodes, the model's choice. -/
def Obligations.TransactionSyncFailure : Prop :=
  ∀ (op : Byte) (P nt nr : Nat) (s : State),
    8 ≤ nt → nt ≤ 32 → nr ≤ 32 → P < 2 ^ (nt - 8) → s.eng.clockKnown = false → syncOutcome s.nextAnswer = none →
    ∃ t : State,
      executeTransaction op P nt nr s = .next (t, .err .syncTimeout) ∧
        t.io.trace = s.io.trace ++ syncEvents s s.nextAnswer ∧
        t.eng.claimed = true ∧ t.eng.progLoaded = false ∧ t.eng.clockKnown = false ∧ t.eng.fPio = s.eng.fPio ∧
        t.eng.syncTicks = s.eng.syncTicks ∧ t.cable = s.cable ∧ t.options = s.options ∧ t.disp = s.disp

/-- R145: a WE_SHIFT that times out clears both flags and fails with BKGD_TIMEOUT; the measurement stays: the one there was,
where the clock was known, and the new one, where the implicit synchronize has just succeeded. `op` is any byte: see
notes/assumptions/21.md for one outside the 29 opcodes, the model's choice. -/
def Obligations.TransactionTimeout : Prop :=
  ∀ (op : Byte) (P nt nr : Nat) (s : State), 8 ≤ nt → nt ≤ 32 → nr ≤ 32 → P < 2 ^ (nt - 8) →
    (s.eng.clockKnown = true → s.nextAnswer = .timeout →
      ∃ (t : State) (tx : Word),
        executeTransaction op P nt nr s = .next (t, .err .bkgdTimeout) ∧ tx.toNat = op.toNat * 2 ^ (nt - 8) + P ∧
          t.io.trace = s.io.trace ++ claimEvents s ++ loadEvents s ++ shiftEvents tx nt nr .timeout ∧
          t.eng.progLoaded = false ∧ t.eng.clockKnown = false ∧ t.eng.claimed = true ∧ t.eng.fPio = s.eng.fPio ∧
          t.eng.syncTicks = s.eng.syncTicks ∧ t.cable = s.cable ∧ t.options = s.options ∧ t.disp = s.disp) ∧
      ∀ (v : Word) (f : Rat), s.eng.clockKnown = false → s.nextAnswer = .done v → tickFrequency v = some f →
        s.popAnswer.nextAnswer = .timeout →
        ∃ (t : State) (tx : Word),
          executeTransaction op P nt nr s = .next (t, .err .bkgdTimeout) ∧ tx.toNat = op.toNat * 2 ^ (nt - 8) + P ∧
            t.io.trace =
              s.io.trace ++ syncEvents s (.done v) ++ [.request (.load .txn (clockDivider f))] ++
                shiftEvents tx nt nr .timeout ∧
            t.eng.progLoaded = false ∧ t.eng.clockKnown = false ∧ t.eng.claimed = true ∧ t.eng.fPio = f ∧
            t.eng.syncTicks = v.extractLsb' 0 16 ∧ t.cable = s.cable ∧ t.options = s.options ∧ t.disp = s.disp

/-- R142, R181, R328: a call outside the preconditions is the fault PreconditionViolation; every row of R181 satisfies them
with any arguments; and no instruction faults or is refused. That an opcode byte outside the 29 is no fault is the model's
choice (notes/assumptions/21.md). -/
def Obligations.PreconditionsOnlyFault : Prop :=
  (∀ (op : Byte) (P nt nr : Nat) (s : State),
      executeTransaction op P nt nr s = .fault .preconditionViolation ↔
        ¬(8 ≤ nt ∧ nt ≤ 32 ∧ nr ≤ 32 ∧ P < 2 ^ (nt - 8))) ∧
    (∀ (o : BdmOp) (args : List Nat),
      let P := packFields o.format.fields args 0
      8 ≤ o.format.txBits ∧ o.format.txBits ≤ 32 ∧ o.format.rxBits ≤ 32 ∧ P < 2 ^ (o.format.txBits - 8)) ∧
    ∀ (i : Instr) (s : State), ∃ t, exec i s = .next t

/-! ## BDM commands at the engine interface -/

/-- R184 to R189 on a warm engine: the commands that are an opcode alone shift it and discard the dummy word; GO and TAGGO
then clear `E.clockKnown`, the others keep it; `E.progLoaded` stays. -/
def Obligations.OpcodeOnlyCommandsComplete : Prop :=
  ∀ (s : State) (w : Word), Warm s → s.nextAnswer = .done w →
    exec .ackEnable s = .next ((warmShift 0x000000D5 8 0 w s).pushResult (.ok .none)) ∧
      exec .ackDisabled s = .next ((warmShift 0x000000D6 8 0 w s).pushResult (.ok .none)) ∧
      exec .background s = .next ((warmShift 0x00000090 8 0 w s).pushResult (.ok .none)) ∧
      exec .trace1 s = .next ((warmShift 0x00000010 8 0 w s).pushResult (.ok .none)) ∧
      exec .go s = .next ((warmShift 0x00000008 8 0 w s).clearClock.pushResult (.ok .none)) ∧
      exec .taggo s = .next ((warmShift 0x00000018 8 0 w s).clearClock.pushResult (.ok .none))

/-- R190 to R196, R204, R208, R211 on a warm engine: the reads without a parameter return the low 8 or 16 bits of the
completion word, a WS form as the pair (status, data). -/
def Obligations.ParameterlessReadsComplete : Prop :=
  ∀ (s : State) (w : Word), Warm s → s.nextAnswer = .done w →
    exec .readA s = .next ((warmShift 0x00000068 8 8 w s).pushResult (.ok (.data (w.extractLsb' 0 8)))) ∧
      exec .readCcr s = .next ((warmShift 0x00000069 8 8 w s).pushResult (.ok (.data (w.extractLsb' 0 8)))) ∧
      exec .readPc s = .next ((warmShift 0x0000006B 8 16 w s).pushResult (.ok (.value (w.extractLsb' 0 16)))) ∧
      exec .readHx s = .next ((warmShift 0x0000006C 8 16 w s).pushResult (.ok (.value (w.extractLsb' 0 16)))) ∧
      exec .readSp s = .next ((warmShift 0x0000006F 8 16 w s).pushResult (.ok (.value (w.extractLsb' 0 16)))) ∧
      exec .readNext s = .next ((warmShift 0x00000070 8 8 w s).pushResult (.ok (.data (w.extractLsb' 0 8)))) ∧
      exec .readNextWs s =
        .next ((warmShift 0x00000071 8 16 w s).pushResult
          (.ok (.statusData (w.extractLsb' 8 8) (w.extractLsb' 0 8)))) ∧
      exec .readStatus s = .next ((warmShift 0x000000E4 8 8 w s).pushResult (.ok (.status (w.extractLsb' 0 8)))) ∧
      exec .readLast s =
        .next ((warmShift 0x000000E8 8 16 w s).pushResult
          (.ok (.statusData (w.extractLsb' 8 8) (w.extractLsb' 0 8)))) ∧
      exec .readBkpt s = .next ((warmShift 0x000000E2 8 16 w s).pushResult (.ok (.value (w.extractLsb' 0 16))))

/-- R197 to R203, R205, R212 on a warm engine: the commands with one parameter that is no address shift `op ++ d` or
`op ++ v`; WRITE_NEXT_WS returns the target status. -/
def Obligations.RegisterWritesComplete : Prop :=
  ∀ (s : State) (w : Word) (d : Byte) (v : Half), Warm s → s.nextAnswer = .done w →
    exec (.writeA d) s =
        .next ((warmShift (((0x48 : Byte) ++ d).setWidth 32) 16 0 w s).pushResult (.ok .none)) ∧
      exec (.writeCcr d) s =
        .next ((warmShift (((0x49 : Byte) ++ d).setWidth 32) 16 0 w s).pushResult (.ok .none)) ∧
      exec (.writeNext d) s =
        .next ((warmShift (((0x50 : Byte) ++ d).setWidth 32) 16 0 w s).pushResult (.ok .none)) ∧
      exec (.writeNextWs d) s =
        .next ((warmShift (((0x51 : Byte) ++ d).setWidth 32) 16 8 w s).pushResult
          (.ok (.status (w.extractLsb' 0 8)))) ∧
      exec (.writeControl d) s =
        .next ((warmShift (((0xC4 : Byte) ++ d).setWidth 32) 16 0 w s).pushResult (.ok .none)) ∧
      exec (.writePc v) s =
        .next ((warmShift (((0x4B : Byte) ++ v).setWidth 32) 24 0 w s).pushResult (.ok .none)) ∧
      exec (.writeHx v) s =
        .next ((warmShift (((0x4C : Byte) ++ v).setWidth 32) 24 0 w s).pushResult (.ok .none)) ∧
      exec (.writeSp v) s =
        .next ((warmShift (((0x4F : Byte) ++ v).setWidth 32) 24 0 w s).pushResult (.ok .none)) ∧
      exec (.writeBkpt v) s =
        .next ((warmShift (((0xC2 : Byte) ++ v).setWidth 32) 24 0 w s).pushResult (.ok .none))

/-- R206, R207, R209, R210 on a warm engine: the memory byte commands shift `op ++ a` or `op ++ a ++ d`, at every
address. -/
def Obligations.MemoryByteCommandsComplete : Prop :=
  ∀ (s : State) (w : Word) (a : Half) (d : Byte), Warm s → s.nextAnswer = .done w →
    exec (.readByte a) s =
        .next ((warmShift (((0xE0 : Byte) ++ a).setWidth 32) 24 8 w s).pushResult
          (.ok (.data (w.extractLsb' 0 8)))) ∧
      exec (.readByteWs a) s =
        .next ((warmShift (((0xE1 : Byte) ++ a).setWidth 32) 24 16 w s).pushResult
          (.ok (.statusData (w.extractLsb' 8 8) (w.extractLsb' 0 8)))) ∧
      exec (.writeByte a d) s =
        .next ((warmShift ((0xC0 : Byte) ++ (a ++ d)) 32 0 w s).pushResult (.ok .none)) ∧
      exec (.writeByteWs a d) s =
        .next ((warmShift ((0xC1 : Byte) ++ (a ++ d)) 32 8 w s).pushResult (.ok (.status (w.extractLsb' 0 8))))

/-- R60, R91, R96: the word a BDM command shifts is its encoding read MSB-first, and its bit count is that encoding's; with
the engine in any state but one whose synchronize fails, that shift is the last request. -/
def Obligations.ShiftCarriesEncoding : Prop :=
  ∀ (i : Instr) (o : BdmOp) (s t : State), i.bdmOp = some o → exec i s = .next t →
    (s.eng.clockKnown = true ∨ syncOutcome s.nextAnswer ≠ none) →
    ∃ before tx nr a,
      t.io.trace = before ++ [.request (.shift tx (BitVec.ofNat 6 (8 * (encode i).length)) nr), .answer a] ∧
        tx.toNat = (encode i).foldl (fun n b => n * 256 + b.toNat) 0

/-- R140, R141, R180 for every BDM command, from every state: with the clock known, claim and load where they are missing;
with it unknown, the synchronize and the load with the new divider; then one shift of the command's encoding and the unpacked
result. GO and TAGGO leave the clock unknown. -/
def Obligations.BdmCommandCompletes : Prop :=
  ∀ (i : Instr) (o : BdmOp) (s : State), i.bdmOp = some o →
    ∃ tx : Word,
      tx.toNat = (encode i).foldl (fun n b => n * 256 + b.toNat) 0 ∧
        let post (w : Word) (t : State) : State :=
          (if o = .go ∨ o = .taggo then t.clearClock else t).pushResult
            (.ok (unpack o (receivedOf (BitVec.ofNat 6 o.format.rxBits) w)))
        (∀ w : Word, s.eng.clockKnown = true → s.nextAnswer = .done w →
          exec i s = .next (post w (knownShift tx o.format.txBits o.format.rxBits (.done w) s))) ∧
          ∀ (v w : Word) (f : Rat), s.eng.clockKnown = false → s.nextAnswer = .done v → tickFrequency v = some f →
            s.popAnswer.nextAnswer = .done w →
            exec i s = .next (post w (knownShift tx o.format.txBits o.format.rxBits (.done w) (afterMeasure v f s)))

/-- R137, R145, R180, R327 for every BDM command, from every state: a shift that times out gives BKGD_TIMEOUT and clears both
flags, with the clock known at the start and after an implicit synchronize alike; an implicit synchronize that fails gives
SYNC_TIMEOUT and nothing is shifted. Nothing else is written (the latches of R26 hold any value). -/
def Obligations.BdmCommandFails : Prop :=
  ∀ (i : Instr) (o : BdmOp) (s : State), i.bdmOp = some o →
    ∃ tx : Word,
      tx.toNat = (encode i).foldl (fun n b => n * 256 + b.toNat) 0 ∧
        (s.eng.clockKnown = true → s.nextAnswer = .timeout →
          exec i s =
            .next ((knownShift tx o.format.txBits o.format.rxBits .timeout s).pushResult (.err .bkgdTimeout))) ∧
        (∀ (v : Word) (f : Rat), s.eng.clockKnown = false → s.nextAnswer = .done v → tickFrequency v = some f →
          s.popAnswer.nextAnswer = .timeout →
          exec i s =
            .next
              ((knownShift tx o.format.txBits o.format.rxBits .timeout (afterMeasure v f s)).pushResult
                (.err .bkgdTimeout))) ∧
        (s.eng.clockKnown = false → syncOutcome s.nextAnswer = none →
          exec i s = .next ((afterSyncFailure s).pushResult (.err .syncTimeout)))

/-- R182: a byte that is no BDM command sends nothing, writes nothing and fails with ILLEGAL_COMMAND. -/
def Obligations.UnknownBdmOpcodeFails : Prop :=
  ∀ (b : Byte) (args : List Nat) (s : State), isValidBdmCommand b = false → bdmCmd b args s = (s, .err .illegalCommand)

/-! ## Host commands without a transaction -/

/-- R236, R239, R241: SET_TARGET, GET_CAPABILITIES and CONTROL_PINS answer in every state and write nothing but the
response. -/
def Obligations.FixedAnswersComplete : Prop :=
  ∀ s : State,
    exec .setTarget s = .next (s.respond .ok []) ∧
      exec .controlPins s = .next (s.respond .ok [0x00, 0x00]) ∧
      exec .getCapabilities s =
        .next (s.respond .ok
          [Config.capabilityVector.extractLsb' 8 8, Config.capabilityVector.extractLsb' 0 8, 0x00, 0xFE,
           Config.versionTriple.1, Config.versionTriple.2.1, Config.versionTriple.2.2])

/-- R237, R240: SET_VDD writes one byte of the options image; SET_OPTIONS writes the whole image, ignoring bytes past it,
and refuses a truncated one whole. -/
def Obligations.OptionsWritesComplete : Prop :=
  ∀ (s : State) (vdd : Byte) (image extra params : List Byte),
    exec (.setVdd vdd) s =
        .next (({ s with options := s.options.set Config.vddOffset.val vdd } : State).respond .ok []) ∧
      (image.length = optionsSize →
        exec (.setOptions (image ++ extra)) s = .next (({ s with options := image } : State).respond .ok [])) ∧
      (params.length < optionsSize → exec (.setOptions params) s = .next (s.respondErr .illegalParams 0))

/-- R238, R30: GET_BDM_STATUS samples the power input and answers the speed mode's code in bits 5..4 and power in bit 6. -/
def Obligations.StatusWordAnswered : Prop :=
  ∀ s : State,
    exec .getBdmStatus s =
      .next (s.popPower.respond .ok
        [0x00,
          (match s.cable.speedMode with | .none => 0x00 | .sync => 0x10 | .guessed => 0x20 | .user => 0x30) +
            (if s.powerSample then 0x40 else 0x00)])

/-- R243, R244: SET_SPEED stores `h div 60` and the mode USER and changes no engine flag; GET_SPEED answers `ticks * 60`
modulo 2^16 and changes nothing but the response. -/
def Obligations.SpeedCommandsComplete : Prop :=
  ∀ (s : State) (h : Half),
    (∃ ticks : Half,
      ticks.toNat = h.toNat / 60 ∧
        exec (.setSpeed h) s =
          .next
            (({ s with eng := { s.eng with syncTicks := ticks }, cable := { s.cable with speedMode := .user } } :
              State).respond .ok [])) ∧
      ∃ hi lo : Byte,
        hi.toNat * 256 + lo.toNat = s.eng.syncTicks.toNat * 60 % 65536 ∧
          exec .getSpeed s = .next (s.respond .ok [hi, lo])

/-- R242: CONNECT measures whatever the state; after a success `C.speedMode` is SYNC, after a failure NONE. -/
def Obligations.ConnectCompletes : Prop :=
  ∀ s : State,
    (∀ w f, syncOutcome s.nextAnswer = some (w, f) →
      ∃ t, exec .connect s = .next t ∧ t.io.responses = s.io.responses ++ [[0x00]] ∧
        t.cable = { s.cable with speedMode := .sync } ∧
        t.eng.claimed = true ∧ t.eng.progLoaded = false ∧ t.eng.clockKnown = true ∧ t.eng.fPio = syncFrequency w.toNat ∧
        t.eng.syncTicks = w.extractLsb' 0 16 ∧ t.eng.seq = s.eng.seq ∧ t.io.results = s.io.results ∧
        t.io.trace = s.io.trace ++ syncEvents s (.done w) ∧ t.options = s.options ∧
        t.disp = { s.disp with rspFrame := [0x00] }) ∧
      (syncOutcome s.nextAnswer = none →
        ∃ t, exec .connect s = .next t ∧ t.io.responses = s.io.responses ++ [[0x15]] ∧
          t.cable = { s.cable with speedMode := .none } ∧
          t.eng.claimed = true ∧ t.eng.progLoaded = false ∧ t.eng.clockKnown = false ∧ t.eng.fPio = s.eng.fPio ∧
          t.eng.syncTicks = s.eng.syncTicks ∧ t.eng.seq = s.eng.seq ∧ t.io.results = s.io.results ∧
          t.io.trace = s.io.trace ++ syncEvents s s.nextAnswer ∧ t.options = s.options ∧
          t.disp = { s.disp with rspFrame := [0x15] })

/-! ## Host commands of one transaction -/

/-- R245, R257: READ_STATUS_REG and READ_DREG, whatever id the latter carries: from every state they carry READ_STATUS and
READ_BKPT; on a warm engine that is one shift and four bytes. -/
def Obligations.StatusAndBreakpointReadsComplete : Prop :=
  ∀ (s : State) (id : Half),
    CarriesBdm .readStatusReg .readStatus 4 readPayload s ∧ CarriesBdm (.readDreg id) .readBkpt 4 readPayload s ∧
      ∀ w : Word, Warm s → s.nextAnswer = .done w →
        exec .readStatusReg s =
            .next ((warmShift 0x000000E4 8 8 w s).respond .ok [0x00, 0x00, 0x00, w.extractLsb' 0 8]) ∧
          exec (.readDreg id) s =
            .next ((warmShift 0x000000E2 8 16 w s).respond .ok
              [0x00, 0x00, w.extractLsb' 8 8, w.extractLsb' 0 8])

/-- R246, R256: WRITE_CONTROL_REG sends bits 7..0 of its value, WRITE_DREG bits 15..0, whatever its id: from every state they
carry WRITE_CONTROL and WRITE_BKPT; on a warm engine that is one shift. -/
def Obligations.ControlAndBreakpointWritesComplete : Prop :=
  ∀ (s : State) (v : Word) (id : Half),
    CarriesBdm (.writeControlReg v) (.writeControl (v.extractLsb' 0 8)) 0 (fun _ => []) s ∧
      CarriesBdm (.writeDreg id v) (.writeBkpt (v.extractLsb' 0 16)) 0 (fun _ => []) s ∧
      ∀ w : Word, Warm s → s.nextAnswer = .done w →
        exec (.writeControlReg v) s =
            .next ((warmShift (((0xC4 : Byte) ++ v.extractLsb' 0 8).setWidth 32) 16 0 w s).respond .ok []) ∧
          exec (.writeDreg id v) s =
            .next ((warmShift (((0xC2 : Byte) ++ v.extractLsb' 0 16).setWidth 32) 24 0 w s).respond .ok [])

/-- R250, R251, R252: step, go and halt carry TRACE1, GO and BACKGROUND from every state; on a warm engine that is one shift,
and only go clears the clock. -/
def Obligations.ExecutionControlCompletes : Prop :=
  ∀ s : State,
    CarriesBdm .targetStep .trace1 0 (fun _ => []) s ∧ CarriesBdm .targetGo .go 0 (fun _ => []) s ∧
      CarriesBdm .targetHalt .background 0 (fun _ => []) s ∧
      ∀ w : Word, Warm s → s.nextAnswer = .done w →
        exec .targetStep s = .next ((warmShift 0x00000010 8 0 w s).respond .ok []) ∧
          exec .targetGo s = .next ((warmShift 0x00000008 8 0 w s).clearClock.respond .ok []) ∧
          exec .targetHalt s = .next ((warmShift 0x00000090 8 0 w s).respond .ok [])

/-- R253, R255: WRITE_REG sends the low bits of its value to the register its whole id names: from every state it carries that
register's write; on a warm engine that is one shift. -/
def Obligations.WriteRegCompletes : Prop :=
  ∀ (s : State) (v : Word),
    (CarriesBdm (.writeReg 0x000B v) (.writePc (v.extractLsb' 0 16)) 0 (fun _ => []) s ∧
        CarriesBdm (.writeReg 0x000F v) (.writeSp (v.extractLsb' 0 16)) 0 (fun _ => []) s ∧
        CarriesBdm (.writeReg 0x000C v) (.writeHx (v.extractLsb' 0 16)) 0 (fun _ => []) s ∧
        CarriesBdm (.writeReg 0x0008 v) (.writeA (v.extractLsb' 0 8)) 0 (fun _ => []) s ∧
        CarriesBdm (.writeReg 0x0009 v) (.writeCcr (v.extractLsb' 0 8)) 0 (fun _ => []) s) ∧
      ∀ w : Word, Warm s → s.nextAnswer = .done w →
        exec (.writeReg 0x000B v) s =
            .next ((warmShift (((0x4B : Byte) ++ v.extractLsb' 0 16).setWidth 32) 24 0 w s).respond .ok []) ∧
          exec (.writeReg 0x000F v) s =
            .next ((warmShift (((0x4F : Byte) ++ v.extractLsb' 0 16).setWidth 32) 24 0 w s).respond .ok []) ∧
          exec (.writeReg 0x000C v) s =
            .next ((warmShift (((0x4C : Byte) ++ v.extractLsb' 0 16).setWidth 32) 24 0 w s).respond .ok []) ∧
          exec (.writeReg 0x0008 v) s =
            .next ((warmShift (((0x48 : Byte) ++ v.extractLsb' 0 8).setWidth 32) 16 0 w s).respond .ok []) ∧
          exec (.writeReg 0x0009 v) s =
            .next ((warmShift (((0x49 : Byte) ++ v.extractLsb' 0 8).setWidth 32) 16 0 w s).respond .ok [])

/-- R254, R255: READ_REG answers the register its whole id names, zero-extended into four bytes: from every state it carries
that register's read; on a warm engine that is one shift. -/
def Obligations.ReadRegCompletes : Prop :=
  ∀ s : State,
    (CarriesBdm (.readReg 0x000B) .readPc 4 readPayload s ∧ CarriesBdm (.readReg 0x000F) .readSp 4 readPayload s ∧
        CarriesBdm (.readReg 0x000C) .readHx 4 readPayload s ∧ CarriesBdm (.readReg 0x0008) .readA 4 readPayload s ∧
        CarriesBdm (.readReg 0x0009) .readCcr 4 readPayload s) ∧
      ∀ w : Word, Warm s → s.nextAnswer = .done w →
        exec (.readReg 0x000B) s =
            .next ((warmShift 0x0000006B 8 16 w s).respond .ok
              [0x00, 0x00, w.extractLsb' 8 8, w.extractLsb' 0 8]) ∧
          exec (.readReg 0x000F) s =
            .next ((warmShift 0x0000006F 8 16 w s).respond .ok
              [0x00, 0x00, w.extractLsb' 8 8, w.extractLsb' 0 8]) ∧
          exec (.readReg 0x000C) s =
            .next ((warmShift 0x0000006C 8 16 w s).respond .ok
              [0x00, 0x00, w.extractLsb' 8 8, w.extractLsb' 0 8]) ∧
          exec (.readReg 0x0008) s =
            .next ((warmShift 0x00000068 8 8 w s).respond .ok [0x00, 0x00, 0x00, w.extractLsb' 0 8]) ∧
          exec (.readReg 0x0009) s =
            .next ((warmShift 0x00000069 8 8 w s).respond .ok [0x00, 0x00, 0x00, w.extractLsb' 0 8])

/-! ## Software reset -/

/-- R248: the reset byte's checks in their order, for every byte. -/
def Obligations.ResetByteDecoded : Prop :=
  ∀ m : Byte,
    decodeReset m =
      if m.toNat / 16 ≠ 0 then .err .illegalParams
      else if m.toNat % 4 = 2 ∨ m.toNat % 4 = 3 then .err .illegalParams
      else if m.toNat / 4 % 4 = 0 then .err .illegalParams
      else if m.toNat / 4 % 4 = 1 then .err .featureNotSupported
      else if m.toNat / 4 % 4 = 3 then .err .featureNotSupported
      else if m.toNat % 4 = 0 then .ok .special
      else .ok .normal

/-- R249, R180: a software reset sends the BDM commands of its sequence in order, each with its arguments; the first that
fails ends it with that command's status, the rest unsent; `E.clockKnown` is 0 afterwards whatever the outcome, and the status
is OK, SYNC_TIMEOUT or BKGD_TIMEOUT. What a call sends is what the instruction of that name does. The two trace clauses are
of a warm engine and of commands that do not resume the target (GO and TAGGO, which clear the clock inside the sequence). -/
def Obligations.SoftResetSendsSequence : Prop :=
  (∀ s : State, softReset [] s = (s.clearClock, .ok ())) ∧
    (∀ (c : BdmCall) (cs : List BdmCall) (s t : State) (r : Reply EngineResult), bdmCmd c.op.code c.args s = (t, r) →
      exec (callInstr c) s = .next (t.pushResult r) ∧
        softReset (c :: cs) s = match r with | .ok _ => softReset cs t | .err S => (t.clearClock, .err S)) ∧
    (∀ (sequence : List BdmCall) (s : State),
      (softReset sequence s).1.eng.clockKnown = false ∧
        ((softReset sequence s).2 = .ok () ∨ (softReset sequence s).2 = .err .syncTimeout ∨
          (softReset sequence s).2 = .err .bkgdTimeout)) ∧
    ∀ (sent : List BdmCall) (ws : List Word) (s : State) (rest : List WeAnswer), Warm s →
      (∀ c ∈ sent, c.op ≠ .go ∧ c.op ≠ .taggo) → ws.length = sent.length →
      (s.io.weAnswers = ws.map .done ++ rest →
        (softReset sent s).2 = .ok () ∧ (softReset sent s).1.io.weAnswers = rest ∧
          (softReset sent s).1.io.trace =
            s.io.trace ++ (sent.zip ws).flatMap fun p => callEvents p.1 (.done p.2)) ∧
        ∀ (c : BdmCall) (unsent : List BdmCall), s.io.weAnswers = ws.map .done ++ .timeout :: rest →
          (softReset (sent ++ c :: unsent) s).2 = .err .bkgdTimeout ∧
            (softReset (sent ++ c :: unsent) s).1.io.weAnswers = rest ∧
            (softReset (sent ++ c :: unsent) s).1.io.trace =
              s.io.trace ++ ((sent.zip ws).flatMap fun p => callEvents p.1 (.done p.2)) ++ callEvents c .timeout

/-- R247, R249: a software reset byte (0x08 or 0x09) runs its mode's SOFT_RESET_SEQUENCE from every state and answers its
outcome; when the WE obliges, that is OK, whatever the sequence is, and the clock is unknown. -/
def Obligations.TargetResetCompletes : Prop :=
  ∀ (s : State) (m : Byte) (mode : ResetMode), (m = 0x08 ∧ mode = .special ∨ m = 0x09 ∧ mode = .normal) →
    (∀ (t : State) (r : Reply Unit), softReset (Config.softResetSequence mode) s = (t, r) →
      exec (.targetReset m) s = .next (match r with | .ok _ => t.respond .ok [] | .err S => t.respondErr S 0)) ∧
      (Obliging (2 * (Config.softResetSequence mode).length) s →
        ∃ t, exec (.targetReset m) s = .next t ∧ t.io.responses = s.io.responses ++ [[0x00]] ∧
          t.eng.clockKnown = false ∧ t.cable = s.cable ∧ t.options = s.options ∧
          t.disp = { s.disp with rspFrame := [0x00] } ∧ t.io.results = s.io.results)

/-! ## Memory commands -/

/-- R258, R73, R64, R105: from every state WRITE_MEM is WRITE_BYTE of each byte at ascending addresses modulo 2^16, in order,
once each, ending at the first failure. A count of 0 answers [OK] at once, nothing written but the response. Where every byte is
answered, it answers [OK]: the trace is what comes before the first WE_SHIFT (nothing on a warm engine) and then the shifts,
and the state keeps what `MemoryFrame` lists. The position inside the command (R27 (c)) is not stated. -/
def Obligations.WriteMemCompletes : Prop :=
  (∀ (s : State) (addr : Half) (data : List Byte),
      exec (.writeMem 0x00 0 addr data) s = .next (s.respond .ok [])) ∧
    (∀ (s : State) (count : Byte) (addr : Half) (data : List Byte), data.length = count.toNat →
      CarriesAll (.writeMem 0x00 count addr data)
        ((List.range data.length).map fun k => .writeByte (addr + BitVec.ofNat 16 k) (data.getD k 0)) 0 (fun _ => []) s) ∧
    ∀ (s : State) (count : Byte) (addr : Half) (data : List Byte) (ws : List Word) (rest : List WeAnswer)
      (pre : List WeEvent) (f : Rat) (ticks : Half), data.length = count.toNat → ws.length = count.toNat → ws ≠ [] →
      ReachesShift s pre f ticks (ws.map .done ++ rest) →
      ∃ t, exec (.writeMem 0x00 count addr data) s = .next t ∧ t.io.responses = s.io.responses ++ [[0x00]] ∧
        t.io.trace =
          s.io.trace ++ pre ++
            (List.range data.length).flatMap (fun k =>
              shiftEvents ((0xC0 : Byte) ++ ((addr + BitVec.ofNat 16 k) ++ data.getD k 0)) 32 0 (.done (ws.getD k 0))) ∧
        Warm t ∧ t.eng.fPio = f ∧ t.eng.syncTicks = ticks ∧ t.we = shiftPort s f ∧ MemoryFrame s t ∧ t.io.weAnswers = rest

/-- R258, R67, R235, R316, R317: a WRITE_MEM whose byte `k` times out, whatever came before the first WE_SHIFT, has sent bytes
0..k and no other, answers [BKGD_TIMEOUT] and clears both flags; one whose implicit synchronize fails has sent nothing and
answers [SYNC_TIMEOUT]. -/
def Obligations.WriteMemStopsAtTimeout : Prop :=
  (∀ (s : State) (count : Byte) (addr : Half) (data : List Byte) (ws : List Word) (rest : List WeAnswer)
      (pre : List WeEvent) (f : Rat) (ticks : Half), data.length = count.toNat → ws.length < count.toNat →
      ReachesShift s pre f ticks (ws.map .done ++ .timeout :: rest) →
      ∃ t, exec (.writeMem 0x00 count addr data) s = .next t ∧ t.io.responses = s.io.responses ++ [[0x14]] ∧
        t.io.trace =
          s.io.trace ++ pre ++
            (List.range ws.length).flatMap (fun k =>
              shiftEvents ((0xC0 : Byte) ++ ((addr + BitVec.ofNat 16 k) ++ data.getD k 0)) 32 0 (.done (ws.getD k 0))) ++
            shiftEvents
              ((0xC0 : Byte) ++ ((addr + BitVec.ofNat 16 ws.length) ++ data.getD ws.length 0)) 32 0 .timeout ∧
        t.eng.progLoaded = false ∧ t.eng.clockKnown = false ∧ t.eng.claimed = true ∧ t.eng.fPio = f ∧
        t.eng.syncTicks = ticks ∧ t.we = shiftPort s f ∧ MemoryFrame s t ∧ t.io.weAnswers = rest) ∧
    ∀ (s : State) (count : Byte) (addr : Half) (data : List Byte), data.length = count.toNat → data ≠ [] →
      s.eng.clockKnown = false → syncOutcome s.nextAnswer = none →
      ∃ t, exec (.writeMem 0x00 count addr data) s = .next t ∧ t.io.responses = s.io.responses ++ [[0x15]] ∧
        t.io.trace = s.io.trace ++ syncEvents s s.nextAnswer ∧
        t.eng.progLoaded = false ∧ t.eng.clockKnown = false ∧ t.eng.claimed = true ∧ t.eng.fPio = s.eng.fPio ∧
        t.eng.syncTicks = s.eng.syncTicks ∧ MemoryFrame s t

/-- R259, R73, R64, R105: from every state READ_MEM is READ_BYTE at ascending addresses modulo 2^16, in order, once each,
ending at the first failure, and its payload their data in address order. A count of 0 answers [OK] at once, nothing written
but the response. Where every byte is answered, it answers [OK] and the low bytes of the completion words: the trace is what
comes before the first WE_SHIFT (nothing on a warm engine) and then the shifts. The position inside the command (R27 (c)) is
not stated. -/
def Obligations.ReadMemCompletes : Prop :=
  (∀ (s : State) (addr : Half), exec (.readMem 0x00 0 addr) s = .next (s.respond .ok [])) ∧
    (∀ (s : State) (count : Byte) (addr : Half), count.toNat ≤ 253 →
      CarriesAll (.readMem 0x00 count addr)
        ((List.range count.toNat).map fun k => .readByte (addr + BitVec.ofNat 16 k)) count.toNat dataBytes s) ∧
    ∀ (s : State) (count : Byte) (addr : Half) (ws : List Word) (rest : List WeAnswer)
      (pre : List WeEvent) (f : Rat) (ticks : Half), count.toNat ≤ 253 → ws.length = count.toNat → ws ≠ [] →
      ReachesShift s pre f ticks (ws.map .done ++ rest) →
      ∃ t, exec (.readMem 0x00 count addr) s = .next t ∧
        t.io.responses = s.io.responses ++ [0x00 :: ws.map (fun w => w.extractLsb' 0 8)] ∧
        t.io.trace =
          s.io.trace ++ pre ++
            (List.range ws.length).flatMap (fun k =>
              shiftEvents (((0xE0 : Byte) ++ (addr + BitVec.ofNat 16 k)).setWidth 32) 24 8 (.done (ws.getD k 0))) ∧
        Warm t ∧ t.eng.fPio = f ∧ t.eng.syncTicks = ticks ∧ t.we = shiftPort s f ∧ MemoryFrame s t ∧ t.io.weAnswers = rest

/-- R259, R234, R316, R317: a READ_MEM whose byte `k` times out, whatever came before the first WE_SHIFT, has asked for bytes
0..k and no other, answers BKGD_TIMEOUT and clears both flags; one whose implicit synchronize fails has asked for nothing and
answers SYNC_TIMEOUT. Either way `count` payload bytes of any value follow the status. -/
def Obligations.ReadMemStopsAtTimeout : Prop :=
  (∀ (s : State) (count : Byte) (addr : Half) (ws : List Word) (rest : List WeAnswer)
      (pre : List WeEvent) (f : Rat) (ticks : Half), count.toNat ≤ 253 → ws.length < count.toNat →
      ReachesShift s pre f ticks (ws.map .done ++ .timeout :: rest) →
      ∃ t payload, exec (.readMem 0x00 count addr) s = .next t ∧
        t.io.responses = s.io.responses ++ [0x14 :: payload] ∧ payload.length = count.toNat ∧
        t.io.trace =
          s.io.trace ++ pre ++
            (List.range ws.length).flatMap (fun k =>
              shiftEvents (((0xE0 : Byte) ++ (addr + BitVec.ofNat 16 k)).setWidth 32) 24 8 (.done (ws.getD k 0))) ++
            shiftEvents (((0xE0 : Byte) ++ (addr + BitVec.ofNat 16 ws.length)).setWidth 32) 24 8 .timeout ∧
        t.eng.progLoaded = false ∧ t.eng.clockKnown = false ∧ t.eng.claimed = true ∧ t.eng.fPio = f ∧
        t.eng.syncTicks = ticks ∧ t.we = shiftPort s f ∧ MemoryFrame s t ∧ t.io.weAnswers = rest) ∧
    ∀ (s : State) (count : Byte) (addr : Half), count.toNat ≤ 253 → count ≠ 0 →
      s.eng.clockKnown = false → syncOutcome s.nextAnswer = none →
      ∃ t payload, exec (.readMem 0x00 count addr) s = .next t ∧
        t.io.responses = s.io.responses ++ [0x15 :: payload] ∧ payload.length = count.toNat ∧
        t.io.trace = s.io.trace ++ syncEvents s s.nextAnswer ∧
        t.eng.progLoaded = false ∧ t.eng.clockKnown = false ∧ t.eng.claimed = true ∧ t.eng.fPio = s.eng.fPio ∧
        t.eng.syncTicks = s.eng.syncTicks ∧ MemoryFrame s t

/-- R260: the memory checks in their order: mode first, then the data length of a write, then the capacity of a read. -/
def Obligations.MemoryChecksInOrder : Prop :=
  ∀ (dir : MemDir) (mode : Byte) (n avail : Nat),
    memChecks dir mode n avail =
      if mode ≠ 0x00 then .err .featureNotSupported
      else
        match dir with
        | .write => if avail < n then .err .illegalParams else .ok ()
        | .read => if 254 < 1 + n then .err .illegalParams else .ok ()

/-! ## The dispatcher as a whole -/

/-- R230, R346, R180: when the next request decodes to an instruction, a step in SEQ_IDLE is that instruction's meaning on
the state that has taken the request (for a frame, with the frame in the command frame buffer). That the whole instruction is
one step, and where a request waits, are the model's (notes/assumptions/4.md, 6.md). -/
def Obligations.StepRunsDecodedInstruction : Prop :=
  ∀ (s : State) (inp : Input) (rest : List Input) (i : Instr), s.eng.seq = .idle → s.io.inbox = inp :: rest →
    decodeInput inp = some i →
    step s =
      exec i
        { s with
          io := { s.io with inbox := rest }
          disp := { s.disp with cmdFrame := match inp with | .frame bytes => bytes.take 254 | _ => s.disp.cmdFrame } }

/-- R231, R232, R233, R234, R312, R323: the requests that are no command. Of the length its size byte says, a frame with a
size below 2 or above 254 is answered [FAIL]; then an opcode outside R101, [FAIL]; then too few parameter bytes,
ILLEGAL_PARAMS with a payload of the command's length and any value. Nothing but the buffers and the response changes, and
no WE request is issued. A frame of another length has no move (R346, U17). A BDM word whose opcode is no BDM command gets
ILLEGAL_COMMAND (R182), one with too few bytes is refused. The buffer's 254 bytes of a longer frame, the form of a BDM word
and the two refusals are the model's (notes/assumptions/5.md, 12.md, 13.md). -/
def Obligations.MalformedRequestsAnswered : Prop :=
  (∀ (s : State) (sz : Byte) (p : List Byte) (rest : List Input), s.eng.seq = .idle →
      s.io.inbox = .frame (sz :: p) :: rest →
      let taken : State :=
        { s with
          io := { s.io with inbox := rest }, disp := { s.disp with cmdFrame := (sz :: p).take 254 } }
      (p.length + 1 ≠ max sz.toNat 1 → step s = .refused .hostDutyBroken) ∧
        (p.length + 1 = max sz.toNat 1 →
          (sz.toNat < 2 ∨ 254 < sz.toNat → step s = .next (taken.respondErr .fail 0)) ∧
            (2 ≤ sz.toNat → sz.toNat ≤ 254 → ∀ op q, p = op :: q →
              (hostOpOf op = none → step s = .next (taken.respondErr .fail 0)) ∧
                ∀ o, hostOpOf op = some o → q.length < o.minNp →
                  step s = .next (taken.respondErr .illegalParams o.payloadLen)))) ∧
    ∀ (s : State) (b : Byte) (p : List Byte) (rest : List Input), s.eng.seq = .idle →
      s.io.inbox = .bdm (b :: p) :: rest →
      (isValidBdmCommand b = false →
        step s =
          .next { s with io := { s.io with inbox := rest, results := s.io.results ++ [.err .illegalCommand] } }) ∧
        ∀ o : BdmOp, o.code = b → p.length < o.paramBytes → step s = .refused (.truncatedBdmWord o)

/-- R323, R325, R311, R315, R259: a host command that its value checks refuse answers that check's status at once: no
request, nothing written but the response; READ_MEM's is one byte, every other's has the command's length. Among them
(R255): an id outside the five gives ILLEGAL_PARAMS from WRITE_REG and READ_REG. -/
def Obligations.RefusedCommandsOnlyAnswer : Prop :=
  (∀ (i : Instr) (s : State) (S : Status), checkOf i = .err S →
      exec i s = .next (s.respondErr S (respPayloadLen i)) ∧ (S = .illegalParams ∨ S = .featureNotSupported)) ∧
    ∀ (s : State) (id : Half) (v : Word),
      id ≠ 0x000B → id ≠ 0x000F → id ≠ 0x000C → id ≠ 0x0008 → id ≠ 0x0009 →
      exec (.writeReg id v) s = .next (s.respondErr .illegalParams 0) ∧
        exec (.readReg id) s = .next (s.respondErr .illegalParams 4)

/-- R234, R235, R324, R314, R318: every host command emits exactly one response, which is what the response buffer holds,
its length fixed by R99 and R234, its status one of OK, ILLEGAL_PARAMS, FEATURE_NOT_SUPPORTED, SYNC_TIMEOUT, BKGD_TIMEOUT; a
BDM command emits none and gives its caller exactly one result. -/
def Obligations.OneAnswerPerRequest : Prop :=
  (∀ (i : Instr) (s t : State), i.hostOp.isSome = true → exec i s = .next t →
      ∃ (S : Status) (payload : List Byte),
        t.io.responses = s.io.responses ++ [S.code :: payload] ∧ t.disp.rspFrame = S.code :: payload ∧
          payload.length = respPayloadLen i ∧ t.io.results = s.io.results ∧
          (S = .ok ∨ S = .illegalParams ∨ S = .featureNotSupported ∨ S = .syncTimeout ∨ S = .bkgdTimeout)) ∧
    ∀ (i : Instr) (s t : State), i.bdmOp.isSome = true → exec i s = .next t →
      t.io.responses = s.io.responses ∧ t.disp = s.disp ∧
        ∃ r, t.io.results = s.io.results ++ [r] ∧ (∀ S, r = .err S → S = .syncTimeout ∨ S = .bkgdTimeout)

/-- R319: a host command whose checks pass answers OK, with its payload's length, from any state, when the WE's answers are
completions with valid tick counts. -/
def Obligations.CheckedCommandsAnswerOk : Prop :=
  ∀ (i : Instr) (s : State), i.hostOp.isSome = true → checkOf i = .ok () → Obliging (answersNeeded i) s →
    ∃ (t : State) (payload : List Byte),
      exec i s = .next t ∧ t.io.responses = s.io.responses ++ [0x00 :: payload] ∧ payload.length = payloadLenOf i

/-- R382: the WE requests of one command are bounded, whatever the state and the answers: 3 for CONNECT, 4 + count for the
memory commands, 5 for every other, and 4 + the length of the sequence for a software reset whose sequence does not resume
the target. For a sequence that holds GO or TAGGO the bound is the model's (notes/assumptions/14.md). -/
def Obligations.RequestsPerCommandBounded : Prop :=
  ∀ (i : Instr) (s t : State), exec i s = .next t →
    ∃ new, t.io.trace = s.io.trace ++ new ∧ (requestsOf new).length ≤ requestBound i

/-- R21, R29, R30, R31, D27, D42: whole-machine frame. No instruction clears `E.claimed`, writes the target type, the ACK
mode, the reset flag or the host's requests; only CONNECT and SET_SPEED write the speed mode, never to GUESSED; only
SET_VDD and SET_OPTIONS write the options. -/
def Obligations.ConfigurationFrame : Prop :=
  ∀ (i : Instr) (s t : State), exec i s = .next t →
    (s.eng.claimed = true → t.eng.claimed = true) ∧
      t.cable.targetType = s.cable.targetType ∧ t.cable.ackMode = s.cable.ackMode ∧
      t.cable.resetDetected = s.cable.resetDetected ∧ t.io.inbox = s.io.inbox ∧ t.eng.seq = s.eng.seq ∧
      (t.cable.speedMode ≠ s.cable.speedMode →
        (i = .connect ∧ t.cable.speedMode ≠ .guessed) ∨ ((∃ h, i = .setSpeed h) ∧ t.cable.speedMode = .user)) ∧
      (t.options ≠ s.options → (∃ b, i = .setVdd b) ∨ ∃ p, i = .setOptions p)

/-- R23, R138, R167: `E.clockKnown` goes from 0 to 1 only in a command in which the WE answered a WE_SYNC with an accepted
tick count, and then `E.fPio` is that count's frequency; and `E.fPio` changes in no other way. -/
def Obligations.ClockKnownOnlyByMeasurement : Prop :=
  ∀ (i : Instr) (s t : State), exec i s = .next t →
    (s.eng.clockKnown = false ∧ t.eng.clockKnown = true) ∨ t.eng.fPio ≠ s.eng.fPio →
    ∃ (before after : List WeEvent) (w : Word),
      t.io.trace = s.io.trace ++ before ++ [.request .sync, .answer (.done w)] ++ after ∧
        tickFrequency w = some t.eng.fPio

/-! ## Reset and invariants -/

/-- R39, R350, R351: the values the spec gives the state after reset, and no request and no response yet. -/
def Obligations.ResetValues : Prop :=
  State.reset.eng.claimed = false ∧ State.reset.eng.progLoaded = false ∧ State.reset.eng.clockKnown = false ∧
    State.reset.eng.fPio = 0 ∧ State.reset.eng.syncTicks = 0 ∧ State.reset.eng.seq = .idle ∧
    State.reset.cable =
      { targetType := .hcs08, ackMode := false, resetDetected := false, speedMode := .none } ∧
    State.reset.options = optionsResetImage ∧ State.reset.we.program = none ∧ State.reset.we.rxChannel = none ∧
    State.reset.io.trace = [] ∧ State.reset.io.responses = []

/-- R37: the invariants (I1) to (I5) are kept by every step, from every state that has them. -/
def Obligations.EngineInvariantsKept : Prop := ∀ s t : State, EngineInv s → step s = .next t → EngineInv t

/-- R37, R167: the invariants and the guarantees hold after reset. -/
def Obligations.InvariantsAtReset : Prop := EngineInv State.reset ∧ TraceInv State.reset

/-- R167 (a) to (e), with R153 and R163: the guarantees over the request trace are kept by every step, from every state
whose registers agree with its trace. -/
def Obligations.TraceGuaranteesKept : Prop := ∀ s t : State, TraceInv s → step s = .next t → TraceInv t

/-- R34, R31, R260: the frame buffers and the options image keep to their sizes through every step. What the
buffers keep between frames is the model's (notes/assumptions/5.md). -/
def Obligations.BuffersKeepSizes : Prop := ∀ s t : State, Memory.wf s → step s = .next t → Memory.wf t

/-- R151 with R142: every transition of the sequencer, one step each: what it requests, what it writes, and the next state.
Back in SEQ_IDLE the result goes to the caller and the latches hold any value (R26). A transaction is started with any opcode
byte: the model's choice for one outside the 29 (notes/assumptions/21.md). -/
def Obligations.SequencerTransitions : Prop :=
  ∀ s : State,
    (∀ rest, s.eng.seq = .idle → s.io.inbox = .synchronize :: rest →
        step s = .next { s with eng := { s.eng with cont := .ret, seq := .claim }, io := { s.io with inbox := rest } }) ∧
      (∀ (rest : List Input) (op : Byte) (P nt nr : Nat), s.eng.seq = .idle →
        s.io.inbox = .transaction op P nt nr :: rest →
        (8 ≤ nt ∧ nt ≤ 32 ∧ nr ≤ 32 ∧ P < 2 ^ (nt - 8) →
          ∃ tx : Word, tx.toNat = op.toNat * 2 ^ (nt - 8) + P ∧
            step s =
              .next
                { s with
                  eng :=
                    { s.eng with
                      cont := .txn, op := op, txWord := tx, txBits := BitVec.ofNat 6 nt, rxBits := BitVec.ofNat 6 nr,
                      seq := .claim }
                  io := { s.io with inbox := rest } }) ∧
          (¬(8 ≤ nt ∧ nt ≤ 32 ∧ nr ≤ 32 ∧ P < 2 ^ (nt - 8)) → step s = .fault .preconditionViolation)) ∧
      (s.eng.seq = .claim →
        step s =
          .next
            { s with
              eng :=
                { s.eng with
                  claimed := true
                  seq := if s.eng.cont = .ret ∨ s.eng.clockKnown = false then .syncLoad else .txnLoad }
              io := { s.io with trace := s.io.trace ++ claimEvents s } }) ∧
      (s.eng.seq = .syncLoad →
        step s =
          .next
            { s with
              eng := { s.eng with progLoaded := false, seq := .syncWait }
              we := { s.we with program := some .sync, divider := divSync, outstanding := some .sync }
              io := { s.io with trace := s.io.trace ++ [.request (.load .sync divSync), .request .sync] } }) ∧
      (s.eng.seq = .syncWait →
        let answered : State :=
          { s.popAnswer with
            we := { s.we with outstanding := none, rxChannel := none }
            io := { s.popAnswer.io with trace := s.io.trace ++ [.answer s.nextAnswer] } }
        (syncOutcome s.nextAnswer = none →
          step s =
            .next
              (({ answered with eng := { s.eng with clockKnown := false, seq := .idle } } : State).releaseLatches.pushResult
                (.err .syncTimeout))) ∧
          ∀ (w : Word) (f : Rat), syncOutcome s.nextAnswer = some (w, f) →
            let measured : Engine :=
              { s.eng with fPio := f, syncTicks := w.extractLsb' 0 16, clockKnown := true }
            (s.eng.cont = .ret →
              step s =
                .next
                  (({ answered with eng := { measured with seq := .idle } } : State).releaseLatches.pushResult
                    (.ok (.frequency f)))) ∧
              (s.eng.cont = .txn → step s = .next { answered with eng := { measured with seq := .txnLoad } })) ∧
      (s.eng.seq = .txnLoad → s.eng.progLoaded = true → step s = .next { s with eng := { s.eng with seq := .shift } }) ∧
      (s.eng.seq = .txnLoad → s.eng.progLoaded = false →
        step s =
          .next
            { s with
              eng := { s.eng with progLoaded := true, seq := .shift }
              we := { s.we with program := some .txn, divider := clockDivider s.eng.fPio }
              io := { s.io with trace := s.io.trace ++ [.request (.load .txn (clockDivider s.eng.fPio))] } }) ∧
      (s.eng.seq = .shift →
        let r : WeRequest := .shift s.eng.txWord s.eng.txBits s.eng.rxBits
        step s =
          .next
            { s with
              eng := { s.eng with seq := .shiftWait }
              we := { s.we with outstanding := some r }
              io := { s.io with trace := s.io.trace ++ [.request r] } }) ∧
      (s.eng.seq = .shiftWait →
        let answered : State :=
          { s.popAnswer with
            we := { s.we with outstanding := none, rxChannel := none }
            io := { s.popAnswer.io with trace := s.io.trace ++ [.answer s.nextAnswer] } }
        (s.nextAnswer = .timeout →
          step s =
            .next
              (({ answered with eng := { s.eng with progLoaded := false, clockKnown := false, seq := .idle } } :
                State).releaseLatches.pushResult (.err .bkgdTimeout))) ∧
          ∀ w : Word, s.nextAnswer = .done w →
            ∃ v : Word, v.toNat = w.toNat % 2 ^ s.eng.rxBits.toNat % 2 ^ 32 ∧
              step s =
                .next
                  (({ answered with eng := { s.eng with rxWord := w, seq := .idle } } :
                    State).releaseLatches.pushResult (.ok (.received v))))

/-- R151, R152: the sequencer, one transition a step, ends in the state and with the result of the procedures of R131 and R140,
for every state in SEQ_IDLE, every request and every sequence of answers. Any opcode byte is taken: the model's choice for one
outside the 29 (notes/assumptions/21.md). -/
def Obligations.SequencerRefinesProcedures : Prop :=
  (∀ (s : State) (rest : List Input) (op : Byte) (P nt nr : Nat), s.eng.seq = .idle →
      s.io.inbox = .transaction op P nt nr :: rest → 8 ≤ nt → nt ≤ 32 → nr ≤ 32 → P < 2 ^ (nt - 8) →
      ∃ n, n ≤ 7 ∧ ∃ (t : State) (r : Reply Word),
        executeTransaction op P nt nr { s with io := { s.io with inbox := rest } } = .next (t, r) ∧
          stepMany n s =
            .next (t.pushResult (match r with | .ok v => .ok (.received v) | .err S => .err S))) ∧
    ∀ (s : State) (rest : List Input), s.eng.seq = .idle → s.io.inbox = .synchronize :: rest →
      let p := synchronize { s with io := { s.io with inbox := rest } }
      stepMany 4 s =
        .next (p.1.pushResult (match p.2 with | .ok f => .ok (.frequency f) | .err S => .err S))
end

