-- ==== Sys2Proof/Laws/Decode.lean ====
section
/-! SUPPORT. The encoding tables read backwards, and the byte order helpers. -/

namespace Sys2Proof.Laws

/-! The two opcode maps -/

@[simp] theorem bdmOpOf_code (o : BdmOp) : bdmOpOf o.code = some o := by cases o <;> decide

@[simp] theorem hostOpOf_code (o : HostOp) : hostOpOf o.code = some o := by cases o <;> decide

theorem bdmOpOf_some {b : Byte} {o : BdmOp} (h : bdmOpOf b = some o) : o.code = b := by
  have := List.find?_some h
  simpa using this

theorem hostOpOf_some {b : Byte} {o : HostOp} (h : hostOpOf b = some o) : o.code = b := by
  have := List.find?_some h
  simpa using this

/-! Byte order -/

theorem toNat_append_eq {m n : Nat} (x : BitVec m) (y : BitVec n) :
    (x ++ y).toNat = x.toNat * 2 ^ n + y.toNat := by
  rw [BitVec.toNat_append, Nat.shiftLeft_eq, Nat.mul_comm, ← Nat.two_pow_add_eq_or_of_lt y.isLt]

@[simp] theorem halfBytes_length (v : Half) : (halfBytes v).length = 2 := rfl

@[simp] theorem wordBytes_length (v : Word) : (wordBytes v).length = 4 := rfl

/-- The high and the low byte of a 16-bit value make it up. -/
theorem append_extract_half (v : Half) : (v.extractLsb' 8 8 ++ v.extractLsb' 0 8 : Half) = v := by
  apply BitVec.eq_of_toNat_eq
  rw [toNat_append_eq]
  simp only [BitVec.extractLsb'_toNat, Nat.shiftRight_eq_div_pow]
  have := v.isLt
  omega

/-- The four bytes of a 32-bit value make it up. -/
theorem append_extract_word (v : Word) :
    (v.extractLsb' 24 8 ++ (v.extractLsb' 16 8 ++ (v.extractLsb' 8 8 ++ v.extractLsb' 0 8)) : Word) = v := by
  apply BitVec.eq_of_toNat_eq
  rw [toNat_append_eq, toNat_append_eq, toNat_append_eq]
  simp only [BitVec.extractLsb'_toNat, Nat.shiftRight_eq_div_pow]
  have := v.isLt
  omega

/-- Reading a 16-bit field that starts a byte sequence. -/
@[simp] theorem be16_halfBytes (v : Half) (p : List Byte) : be16 (halfBytes v ++ p) 0 = v := append_extract_half v

/-- Reading a 32-bit field that starts a byte sequence. -/
@[simp] theorem be32_wordBytes (v : Word) (p : List Byte) : be32 (wordBytes v ++ p) 0 = v := append_extract_word v

/-! Decoding -/

theorem decodeBdm_cons {b : Byte} {o : BdmOp} (h : bdmOpOf b = some o) (p : List Byte) :
    decodeBdm (b :: p) =
      if p.length < o.paramBytes then .error (.truncatedBdm o) else .ok (bdmInstr o p, p.drop o.paramBytes) := by
  simp [decodeBdm, h]

/-- A frame of the right length, a legal size and a known opcode with enough parameter bytes (R230). -/
theorem decodeFrame_ok {sz op : Byte} {p : List Byte} {o : HostOp} (hl : p.length + 2 = sz.toNat)
    (hm : sz.toNat ≤ Machine.maxCommandSize) (ho : hostOpOf op = some o) (hp : o.minNp ≤ p.length) :
    decodeFrame (sz :: op :: p) = .ok (hostInstr o p) := by
  have h1 : ¬((sz :: op :: p).length ≠ max sz.toNat 1) := by simp; omega
  have h2 : ¬(sz.toNat < 2 ∨ Machine.maxCommandSize < sz.toNat) := by omega
  have h3 : ¬(p.length < o.minNp) := by omega
  simp only [decodeFrame, if_neg h1, if_neg h2, ho, if_neg h3]

end Sys2Proof.Laws
end

