-- ==== Sys2Proof/Laws/State.lean ====
section
/-! SUPPORT. One lemma per field of State per named update, each true by rfl, so that no proof unfolds a record update. -/

namespace Sys2Proof.Laws

open Sys2Proof.Machine

variable (s : State)

@[simp] theorem setClaimed_eng : (s.setClaimed).eng = { s.eng with claimed := true } := rfl
@[simp] theorem setClaimed_cable : (s.setClaimed).cable = s.cable := rfl
@[simp] theorem setClaimed_options : (s.setClaimed).options = s.options := rfl
@[simp] theorem setClaimed_we : (s.setClaimed).we = s.we := rfl
@[simp] theorem setClaimed_disp : (s.setClaimed).disp = s.disp := rfl
@[simp] theorem setClaimed_io : (s.setClaimed).io = s.io := rfl

@[simp] theorem setProgLoaded_eng (b : Bool) : (s.setProgLoaded b).eng = { s.eng with progLoaded := b } := rfl
@[simp] theorem setProgLoaded_cable (b : Bool) : (s.setProgLoaded b).cable = s.cable := rfl
@[simp] theorem setProgLoaded_options (b : Bool) : (s.setProgLoaded b).options = s.options := rfl
@[simp] theorem setProgLoaded_we (b : Bool) : (s.setProgLoaded b).we = s.we := rfl
@[simp] theorem setProgLoaded_disp (b : Bool) : (s.setProgLoaded b).disp = s.disp := rfl
@[simp] theorem setProgLoaded_io (b : Bool) : (s.setProgLoaded b).io = s.io := rfl

@[simp] theorem clearClock_eng : (s.clearClock).eng = { s.eng with clockKnown := false } := rfl
@[simp] theorem clearClock_cable : (s.clearClock).cable = s.cable := rfl
@[simp] theorem clearClock_options : (s.clearClock).options = s.options := rfl
@[simp] theorem clearClock_we : (s.clearClock).we = s.we := rfl
@[simp] theorem clearClock_disp : (s.clearClock).disp = s.disp := rfl
@[simp] theorem clearClock_io : (s.clearClock).io = s.io := rfl

@[simp] theorem logEvent_eng (e : WeEvent) : (s.logEvent e).eng = s.eng := rfl
@[simp] theorem logEvent_cable (e : WeEvent) : (s.logEvent e).cable = s.cable := rfl
@[simp] theorem logEvent_options (e : WeEvent) : (s.logEvent e).options = s.options := rfl
@[simp] theorem logEvent_we (e : WeEvent) : (s.logEvent e).we = s.we := rfl
@[simp] theorem logEvent_disp (e : WeEvent) : (s.logEvent e).disp = s.disp := rfl
@[simp] theorem logEvent_io (e : WeEvent) : (s.logEvent e).io = { s.io with trace := s.io.trace ++ [e] } := rfl

@[simp] theorem weClaim_eng : (s.weClaim).eng = s.eng := rfl
@[simp] theorem weClaim_cable : (s.weClaim).cable = s.cable := rfl
@[simp] theorem weClaim_options : (s.weClaim).options = s.options := rfl
@[simp] theorem weClaim_we : (s.weClaim).we = s.we := rfl
@[simp] theorem weClaim_disp : (s.weClaim).disp = s.disp := rfl
@[simp] theorem weClaim_io : (s.weClaim).io = { s.io with trace := s.io.trace ++ [.request .claim] } := rfl

@[simp] theorem weLoad_eng (p : Prog) (d : Rat) : (s.weLoad p d).eng = s.eng := rfl
@[simp] theorem weLoad_cable (p : Prog) (d : Rat) : (s.weLoad p d).cable = s.cable := rfl
@[simp] theorem weLoad_options (p : Prog) (d : Rat) : (s.weLoad p d).options = s.options := rfl
@[simp] theorem weLoad_we (p : Prog) (d : Rat) :
    (s.weLoad p d).we = { s.we with program := some p, divider := d } := rfl
@[simp] theorem weLoad_disp (p : Prog) (d : Rat) : (s.weLoad p d).disp = s.disp := rfl
@[simp] theorem weLoad_io (p : Prog) (d : Rat) :
    (s.weLoad p d).io = { s.io with trace := s.io.trace ++ [.request (.load p d)] } := rfl

@[simp] theorem weIssue_eng (r : WeRequest) : (s.weIssue r).eng = s.eng := rfl
@[simp] theorem weIssue_cable (r : WeRequest) : (s.weIssue r).cable = s.cable := rfl
@[simp] theorem weIssue_options (r : WeRequest) : (s.weIssue r).options = s.options := rfl
@[simp] theorem weIssue_we (r : WeRequest) : (s.weIssue r).we = { s.we with outstanding := some r } := rfl
@[simp] theorem weIssue_disp (r : WeRequest) : (s.weIssue r).disp = s.disp := rfl
@[simp] theorem weIssue_io (r : WeRequest) :
    (s.weIssue r).io = { s.io with trace := s.io.trace ++ [.request r] } := rfl

@[simp] theorem deliver_eng (a : WeAnswer) : (s.deliver a).eng = s.eng := rfl
@[simp] theorem deliver_cable (a : WeAnswer) : (s.deliver a).cable = s.cable := rfl
@[simp] theorem deliver_options (a : WeAnswer) : (s.deliver a).options = s.options := rfl
@[simp] theorem deliver_we (a : WeAnswer) :
    (s.deliver a).we = { s.we with outstanding := none, rxChannel := a.word? } := rfl
@[simp] theorem deliver_disp (a : WeAnswer) : (s.deliver a).disp = s.disp := rfl
@[simp] theorem deliver_io (a : WeAnswer) : (s.deliver a).io = { s.io with trace := s.io.trace ++ [.answer a] } := rfl

@[simp] theorem consume_eng : (s.consume).eng = s.eng := rfl
@[simp] theorem consume_cable : (s.consume).cable = s.cable := rfl
@[simp] theorem consume_options : (s.consume).options = s.options := rfl
@[simp] theorem consume_we : (s.consume).we = { s.we with rxChannel := none } := rfl
@[simp] theorem consume_disp : (s.consume).disp = s.disp := rfl
@[simp] theorem consume_io : (s.consume).io = s.io := rfl

@[simp] theorem releaseLatches_eng_claimed : s.releaseLatches.eng.claimed = s.eng.claimed := rfl
@[simp] theorem releaseLatches_eng_progLoaded : s.releaseLatches.eng.progLoaded = s.eng.progLoaded := rfl
@[simp] theorem releaseLatches_eng_clockKnown : s.releaseLatches.eng.clockKnown = s.eng.clockKnown := rfl
@[simp] theorem releaseLatches_eng_fPio : s.releaseLatches.eng.fPio = s.eng.fPio := rfl
@[simp] theorem releaseLatches_eng_syncTicks : s.releaseLatches.eng.syncTicks = s.eng.syncTicks := rfl
@[simp] theorem releaseLatches_eng_seq : s.releaseLatches.eng.seq = s.eng.seq := rfl
@[simp] theorem releaseLatches_cable : s.releaseLatches.cable = s.cable := rfl
@[simp] theorem releaseLatches_options : s.releaseLatches.options = s.options := rfl
@[simp] theorem releaseLatches_we : s.releaseLatches.we = s.we := rfl
@[simp] theorem releaseLatches_disp : s.releaseLatches.disp = s.disp := rfl
@[simp] theorem releaseLatches_io : s.releaseLatches.io = { s.io with draws := s.io.draws + 1 } := rfl

@[simp] theorem setSeq_eng (q : SeqState) : (s.setSeq q).eng = { s.eng with seq := q } := rfl
@[simp] theorem setSeq_cable (q : SeqState) : (s.setSeq q).cable = s.cable := rfl
@[simp] theorem setSeq_options (q : SeqState) : (s.setSeq q).options = s.options := rfl
@[simp] theorem setSeq_we (q : SeqState) : (s.setSeq q).we = s.we := rfl
@[simp] theorem setSeq_disp (q : SeqState) : (s.setSeq q).disp = s.disp := rfl
@[simp] theorem setSeq_io (q : SeqState) : (s.setSeq q).io = s.io := rfl

@[simp] theorem setCont_eng (c : Cont) : (s.setCont c).eng = { s.eng with cont := c } := rfl
@[simp] theorem setCont_cable (c : Cont) : (s.setCont c).cable = s.cable := rfl
@[simp] theorem setCont_options (c : Cont) : (s.setCont c).options = s.options := rfl
@[simp] theorem setCont_we (c : Cont) : (s.setCont c).we = s.we := rfl
@[simp] theorem setCont_disp (c : Cont) : (s.setCont c).disp = s.disp := rfl
@[simp] theorem setCont_io (c : Cont) : (s.setCont c).io = s.io := rfl

@[simp] theorem latch_eng (op : Byte) (P nt nr : Nat) :
    (s.latch op P nt nr).eng = { s.eng with cont := .txn, op := op, txBits := BitVec.ofNat 6 nt, rxBits := BitVec.ofNat 6 nr, txWord := txWordOf op P nt } := rfl
@[simp] theorem latch_cable (op : Byte) (P nt nr : Nat) : (s.latch op P nt nr).cable = s.cable := rfl
@[simp] theorem latch_options (op : Byte) (P nt nr : Nat) : (s.latch op P nt nr).options = s.options := rfl
@[simp] theorem latch_we (op : Byte) (P nt nr : Nat) : (s.latch op P nt nr).we = s.we := rfl
@[simp] theorem latch_disp (op : Byte) (P nt nr : Nat) : (s.latch op P nt nr).disp = s.disp := rfl
@[simp] theorem latch_io (op : Byte) (P nt nr : Nat) : (s.latch op P nt nr).io = s.io := rfl

@[simp] theorem setRxWord_eng (w : Word) : (s.setRxWord w).eng = { s.eng with rxWord := w } := rfl
@[simp] theorem setRxWord_cable (w : Word) : (s.setRxWord w).cable = s.cable := rfl
@[simp] theorem setRxWord_options (w : Word) : (s.setRxWord w).options = s.options := rfl
@[simp] theorem setRxWord_we (w : Word) : (s.setRxWord w).we = s.we := rfl
@[simp] theorem setRxWord_disp (w : Word) : (s.setRxWord w).disp = s.disp := rfl
@[simp] theorem setRxWord_io (w : Word) : (s.setRxWord w).io = s.io := rfl

@[simp] theorem storeSync_eng (w : Word) (f : Rat) :
    (s.storeSync w f).eng = { s.eng with fPio := f, syncTicks := w.extractLsb' 0 16, clockKnown := true } := rfl
@[simp] theorem storeSync_cable (w : Word) (f : Rat) : (s.storeSync w f).cable = s.cable := rfl
@[simp] theorem storeSync_options (w : Word) (f : Rat) : (s.storeSync w f).options = s.options := rfl
@[simp] theorem storeSync_we (w : Word) (f : Rat) : (s.storeSync w f).we = s.we := rfl
@[simp] theorem storeSync_disp (w : Word) (f : Rat) : (s.storeSync w f).disp = s.disp := rfl
@[simp] theorem storeSync_io (w : Word) (f : Rat) : (s.storeSync w f).io = s.io := rfl

@[simp] theorem setSyncLength_eng (v : Half) : (s.setSyncLength v).eng = { s.eng with syncTicks := v } := rfl
@[simp] theorem setSyncLength_cable (v : Half) : (s.setSyncLength v).cable = s.cable := rfl
@[simp] theorem setSyncLength_options (v : Half) : (s.setSyncLength v).options = s.options := rfl
@[simp] theorem setSyncLength_we (v : Half) : (s.setSyncLength v).we = s.we := rfl
@[simp] theorem setSyncLength_disp (v : Half) : (s.setSyncLength v).disp = s.disp := rfl
@[simp] theorem setSyncLength_io (v : Half) : (s.setSyncLength v).io = s.io := rfl

@[simp] theorem setSpeedMode_eng (m : SpeedMode) : (s.setSpeedMode m).eng = s.eng := rfl
@[simp] theorem setSpeedMode_cable (m : SpeedMode) : (s.setSpeedMode m).cable = { s.cable with speedMode := m } := rfl
@[simp] theorem setSpeedMode_options (m : SpeedMode) : (s.setSpeedMode m).options = s.options := rfl
@[simp] theorem setSpeedMode_we (m : SpeedMode) : (s.setSpeedMode m).we = s.we := rfl
@[simp] theorem setSpeedMode_disp (m : SpeedMode) : (s.setSpeedMode m).disp = s.disp := rfl
@[simp] theorem setSpeedMode_io (m : SpeedMode) : (s.setSpeedMode m).io = s.io := rfl

@[simp] theorem setOption_eng (i : Nat) (b : Byte) : (s.setOption i b).eng = s.eng := rfl
@[simp] theorem setOption_cable (i : Nat) (b : Byte) : (s.setOption i b).cable = s.cable := rfl
@[simp] theorem setOption_options (i : Nat) (b : Byte) : (s.setOption i b).options = s.options.set i b := rfl
@[simp] theorem setOption_we (i : Nat) (b : Byte) : (s.setOption i b).we = s.we := rfl
@[simp] theorem setOption_disp (i : Nat) (b : Byte) : (s.setOption i b).disp = s.disp := rfl
@[simp] theorem setOption_io (i : Nat) (b : Byte) : (s.setOption i b).io = s.io := rfl

@[simp] theorem setOptions_eng (image : List Byte) : (s.setOptions image).eng = s.eng := rfl
@[simp] theorem setOptions_cable (image : List Byte) : (s.setOptions image).cable = s.cable := rfl
@[simp] theorem setOptions_options (image : List Byte) : (s.setOptions image).options = image := rfl
@[simp] theorem setOptions_we (image : List Byte) : (s.setOptions image).we = s.we := rfl
@[simp] theorem setOptions_disp (image : List Byte) : (s.setOptions image).disp = s.disp := rfl
@[simp] theorem setOptions_io (image : List Byte) : (s.setOptions image).io = s.io := rfl

@[simp] theorem setMemPos_eng (i : Nat) (a : Half) : (s.setMemPos i a).eng = s.eng := rfl
@[simp] theorem setMemPos_cable (i : Nat) (a : Half) : (s.setMemPos i a).cable = s.cable := rfl
@[simp] theorem setMemPos_options (i : Nat) (a : Half) : (s.setMemPos i a).options = s.options := rfl
@[simp] theorem setMemPos_we (i : Nat) (a : Half) : (s.setMemPos i a).we = s.we := rfl
@[simp] theorem setMemPos_disp (i : Nat) (a : Half) :
    (s.setMemPos i a).disp = { s.disp with memIndex := BitVec.ofNat 8 i, memAddr := a } := rfl
@[simp] theorem setMemPos_io (i : Nat) (a : Half) : (s.setMemPos i a).io = s.io := rfl

@[simp] theorem recordFrame_eng (bs : List Byte) : (s.recordFrame bs).eng = s.eng := rfl
@[simp] theorem recordFrame_cable (bs : List Byte) : (s.recordFrame bs).cable = s.cable := rfl
@[simp] theorem recordFrame_options (bs : List Byte) : (s.recordFrame bs).options = s.options := rfl
@[simp] theorem recordFrame_we (bs : List Byte) : (s.recordFrame bs).we = s.we := rfl
@[simp] theorem recordFrame_disp (bs : List Byte) :
    (s.recordFrame bs).disp = { s.disp with cmdFrame := bs.take maxCommandSize } := rfl
@[simp] theorem recordFrame_io (bs : List Byte) : (s.recordFrame bs).io = s.io := rfl

@[simp] theorem respond_eng (S : Status) (p : List Byte) : (s.respond S p).eng = s.eng := rfl
@[simp] theorem respond_cable (S : Status) (p : List Byte) : (s.respond S p).cable = s.cable := rfl
@[simp] theorem respond_options (S : Status) (p : List Byte) : (s.respond S p).options = s.options := rfl
@[simp] theorem respond_we (S : Status) (p : List Byte) : (s.respond S p).we = s.we := rfl
@[simp] theorem respond_disp (S : Status) (p : List Byte) :
    (s.respond S p).disp = { s.disp with rspFrame := S.code :: p } := rfl
@[simp] theorem respond_io (S : Status) (p : List Byte) :
    (s.respond S p).io = { s.io with responses := s.io.responses ++ [S.code :: p] } := rfl

@[simp] theorem respondErr_eng (S : Status) (n : Nat) : (s.respondErr S n).eng = s.eng := rfl
@[simp] theorem respondErr_cable (S : Status) (n : Nat) : (s.respondErr S n).cable = s.cable := rfl
@[simp] theorem respondErr_options (S : Status) (n : Nat) : (s.respondErr S n).options = s.options := rfl
@[simp] theorem respondErr_we (S : Status) (n : Nat) : (s.respondErr S n).we = s.we := rfl
@[simp] theorem respondErr_disp (S : Status) (n : Nat) :
    (s.respondErr S n).disp = { s.disp with rspFrame := S.code :: s.freeBytes n } := rfl
@[simp] theorem respondErr_io (S : Status) (n : Nat) :
    (s.respondErr S n).io = { s.io with responses := s.io.responses ++ [S.code :: s.freeBytes n], draws := s.io.draws + n } := rfl

@[simp] theorem pushResult_eng (r : Reply EngineResult) : (s.pushResult r).eng = s.eng := rfl
@[simp] theorem pushResult_cable (r : Reply EngineResult) : (s.pushResult r).cable = s.cable := rfl
@[simp] theorem pushResult_options (r : Reply EngineResult) : (s.pushResult r).options = s.options := rfl
@[simp] theorem pushResult_we (r : Reply EngineResult) : (s.pushResult r).we = s.we := rfl
@[simp] theorem pushResult_disp (r : Reply EngineResult) : (s.pushResult r).disp = s.disp := rfl
@[simp] theorem pushResult_io (r : Reply EngineResult) :
    (s.pushResult r).io = { s.io with results := s.io.results ++ [r] } := rfl

@[simp] theorem popInput_eng : (s.popInput).eng = s.eng := rfl
@[simp] theorem popInput_cable : (s.popInput).cable = s.cable := rfl
@[simp] theorem popInput_options : (s.popInput).options = s.options := rfl
@[simp] theorem popInput_we : (s.popInput).we = s.we := rfl
@[simp] theorem popInput_disp : (s.popInput).disp = s.disp := rfl
@[simp] theorem popInput_io : (s.popInput).io = { s.io with inbox := s.io.inbox.tail } := rfl

@[simp] theorem placeInput_eng (inp : Input) : (s.placeInput inp).eng = { s.eng with seq := .idle } := rfl
@[simp] theorem placeInput_cable (inp : Input) : (s.placeInput inp).cable = s.cable := rfl
@[simp] theorem placeInput_options (inp : Input) : (s.placeInput inp).options = s.options := rfl
@[simp] theorem placeInput_we (inp : Input) : (s.placeInput inp).we = s.we := rfl
@[simp] theorem placeInput_disp (inp : Input) : (s.placeInput inp).disp = s.disp := rfl
@[simp] theorem placeInput_io (inp : Input) : (s.placeInput inp).io = { s.io with inbox := inp :: s.io.inbox } := rfl

@[simp] theorem popAnswer_eng : s.popAnswer.eng = s.eng := by cases h : s.io.weAnswers <;> simp [State.popAnswer, h]
@[simp] theorem popAnswer_cable : s.popAnswer.cable = s.cable := by cases h : s.io.weAnswers <;> simp [State.popAnswer, h]
@[simp] theorem popAnswer_options : s.popAnswer.options = s.options := by cases h : s.io.weAnswers <;> simp [State.popAnswer, h]
@[simp] theorem popAnswer_we : s.popAnswer.we = s.we := by cases h : s.io.weAnswers <;> simp [State.popAnswer, h]
@[simp] theorem popAnswer_disp : s.popAnswer.disp = s.disp := by cases h : s.io.weAnswers <;> simp [State.popAnswer, h]
@[simp] theorem popAnswer_io_inbox : s.popAnswer.io.inbox = s.io.inbox := by cases h : s.io.weAnswers <;> simp [State.popAnswer, h]
@[simp] theorem popAnswer_io_trace : s.popAnswer.io.trace = s.io.trace := by cases h : s.io.weAnswers <;> simp [State.popAnswer, h]
@[simp] theorem popAnswer_io_responses : s.popAnswer.io.responses = s.io.responses := by cases h : s.io.weAnswers <;> simp [State.popAnswer, h]
@[simp] theorem popAnswer_io_results : s.popAnswer.io.results = s.io.results := by cases h : s.io.weAnswers <;> simp [State.popAnswer, h]
@[simp] theorem popAnswer_io_powerSamples : s.popAnswer.io.powerSamples = s.io.powerSamples := by cases h : s.io.weAnswers <;> simp [State.popAnswer, h]
@[simp] theorem popAnswer_io_weAnswers : s.popAnswer.io.weAnswers = s.io.weAnswers.tail := by cases h : s.io.weAnswers <;> simp [State.popAnswer, h]

@[simp] theorem popPower_eng : s.popPower.eng = s.eng := by cases h : s.io.powerSamples <;> simp [State.popPower, h]
@[simp] theorem popPower_cable : s.popPower.cable = s.cable := by cases h : s.io.powerSamples <;> simp [State.popPower, h]
@[simp] theorem popPower_options : s.popPower.options = s.options := by cases h : s.io.powerSamples <;> simp [State.popPower, h]
@[simp] theorem popPower_we : s.popPower.we = s.we := by cases h : s.io.powerSamples <;> simp [State.popPower, h]
@[simp] theorem popPower_disp : s.popPower.disp = s.disp := by cases h : s.io.powerSamples <;> simp [State.popPower, h]
@[simp] theorem popPower_io_inbox : s.popPower.io.inbox = s.io.inbox := by cases h : s.io.powerSamples <;> simp [State.popPower, h]
@[simp] theorem popPower_io_trace : s.popPower.io.trace = s.io.trace := by cases h : s.io.powerSamples <;> simp [State.popPower, h]
@[simp] theorem popPower_io_responses : s.popPower.io.responses = s.io.responses := by cases h : s.io.powerSamples <;> simp [State.popPower, h]
@[simp] theorem popPower_io_results : s.popPower.io.results = s.io.results := by cases h : s.io.powerSamples <;> simp [State.popPower, h]
@[simp] theorem popPower_io_weAnswers : s.popPower.io.weAnswers = s.io.weAnswers := by cases h : s.io.powerSamples <;> simp [State.popPower, h]
@[simp] theorem popPower_io_powerSamples : s.popPower.io.powerSamples = s.io.powerSamples.tail := by cases h : s.io.powerSamples <;> simp [State.popPower, h]

end Sys2Proof.Laws
end

