-- ==== Sys2Proof/Laws/Ops.lean ====
section
/-! SUPPORT. The shared operations of the scheduler port and the buffers: what each can do, said once. -/

namespace Sys2Proof.Laws

open Sys2Proof.Machine

variable (s : State)

/-! The next answer reads two fields of the ports only. -/

theorem nextAnswer_congr {s t : State} (h : t.io.weAnswers = s.io.weAnswers) (hd : t.io.draws = s.io.draws) :
    t.nextAnswer = s.nextAnswer := by simp [State.nextAnswer, h, hd]

theorem popAnswer_congr {s t : State} (h : t.io.weAnswers = s.io.weAnswers) (hd : t.io.draws = s.io.draws) :
    t.popAnswer.io.weAnswers = s.popAnswer.io.weAnswers ∧ t.popAnswer.io.draws = s.popAnswer.io.draws := by
  cases ha : s.io.weAnswers <;> simp [State.popAnswer, h, hd, ha]

theorem nextAnswer_cons {s : State} {a : WeAnswer} {rest : List WeAnswer} (h : s.io.weAnswers = a :: rest) :
    s.nextAnswer = a := by simp [State.nextAnswer, h]

theorem popAnswer_cons {s : State} {a : WeAnswer} {rest : List WeAnswer} (h : s.io.weAnswers = a :: rest) :
    s.popAnswer = { s with io := { s.io with weAnswers := rest } } := by simp [State.popAnswer, h]

@[simp] theorem popAnswer_draws_cons {s : State} {a : WeAnswer} {rest : List WeAnswer}
    (h : s.io.weAnswers = a :: rest) : s.popAnswer.io.draws = s.io.draws := by simp [State.popAnswer, h]

/-- Drawing an answer commutes with every change that leaves the two fields it reads alone. -/
theorem popAnswer_eq {s t : State} (h : t.io.weAnswers = s.io.weAnswers) (hd : t.io.draws = s.io.draws) :
    t.popAnswer =
      { t with io := { t.io with weAnswers := s.popAnswer.io.weAnswers, draws := s.popAnswer.io.draws } } := by
  cases ha : s.io.weAnswers <;> simp [State.popAnswer, h, hd, ha]

/-! One wait -/

@[simp] theorem ofDraw_word (a : WeAnswer) : WeAnswer.ofDraw a.word? = a := by cases a <;> rfl

/-- A wait answers with the WE's next answer (R163, R164). -/
@[simp] theorem weWait_answer : s.weWait.1 = s.nextAnswer := by simp [State.weWait]

/-- What a wait does to the state: it draws one answer, logs it, and leaves no request outstanding and no word in the
receive channel (R36, R163). -/
theorem weWait_state :
    s.weWait.2 =
      { s.popAnswer with
        we := { s.we with outstanding := none, rxChannel := none }
        io := { s.popAnswer.io with trace := s.io.trace ++ [.answer s.nextAnswer] } } := by
  apply State.ext <;> simp [State.weWait]

@[simp] theorem weWait_eng : s.weWait.2.eng = s.eng := by simp [weWait_state]
@[simp] theorem weWait_cable : s.weWait.2.cable = s.cable := by simp [weWait_state]
@[simp] theorem weWait_options : s.weWait.2.options = s.options := by simp [weWait_state]
@[simp] theorem weWait_disp : s.weWait.2.disp = s.disp := by simp [weWait_state]
@[simp] theorem weWait_we : s.weWait.2.we = { s.we with outstanding := none, rxChannel := none } := by
  simp [weWait_state]
@[simp] theorem weWait_io :
    s.weWait.2.io = { s.popAnswer.io with trace := s.io.trace ++ [.answer s.nextAnswer] } := by simp [weWait_state]

/-- A wait in a state that has the answers and free values of `s`, in terms of `s`. -/
theorem weWait_after {s t : State} (h : t.io.weAnswers = s.io.weAnswers) (hd : t.io.draws = s.io.draws) :
    t.weWait =
      (s.nextAnswer,
        { t with
          we := { t.we with outstanding := none, rxChannel := none }
          io :=
            { t.io with
              weAnswers := s.popAnswer.io.weAnswers
              draws := s.popAnswer.io.draws
              trace := t.io.trace ++ [.answer s.nextAnswer] } }) := by
  apply Prod.ext
  · simp [nextAnswer_congr h hd]
  · rw [weWait_state, popAnswer_eq h hd, nextAnswer_congr h hd]

/-! The end of an engine operation -/

/-- Two engines that differ in the latches of R26 at most. -/
def restingEq (e f : Engine) : Prop :=
  e.claimed = f.claimed ∧ e.progLoaded = f.progLoaded ∧ e.clockKnown = f.clockKnown ∧ e.fPio = f.fPio ∧
    e.syncTicks = f.syncTicks ∧ e.seq = f.seq

/-- Once an operation is over, nothing of its latches is left. -/
theorem releaseLatches_congr {s t : State} (he : restingEq s.eng t.eng) (hc : s.cable = t.cable)
    (ho : s.options = t.options) (hw : s.we = t.we) (hd : s.disp = t.disp) (hi : s.io = t.io) :
    s.releaseLatches = t.releaseLatches := by
  obtain ⟨h1, h2, h3, h4, h5, h6⟩ := he
  apply State.ext
  · apply Engine.ext <;> simp [State.releaseLatches, h1, h2, h3, h4, h5, h6, hi]
  · exact hc
  · exact ho
  · exact hw
  · exact hd
  · simp [hi]

@[simp] theorem released_snd {α : Type} (p : State × α) : (released p).2 = p.2 := rfl
@[simp] theorem released_fst {α : Type} (p : State × α) : (released p).1 = p.1.releaseLatches := rfl

/-! Responses -/

@[simp] theorem freeBytes_length (n : Nat) : (s.freeBytes n).length = n := by simp [State.freeBytes]

theorem answer_ok {α : Type} (n : Nat) (payload : α → List Byte) (t : State) (v : α) :
    answer n payload (t, .ok v) = t.respond .ok (payload v) := rfl

theorem answer_err {α : Type} (n : Nat) (payload : α → List Byte) (t : State) (S : Status) :
    answer n payload (t, .err S) = t.respondErr S n := rfl

/-- Everything `answer` can do (R234, R320): one response, whose status is the reply's. -/
theorem answer_cases {α : Type} (n : Nat) (payload : α → List Byte) (p : State × Reply α) :
    (∃ v, p.2 = .ok v ∧ answer n payload p = p.1.respond .ok (payload v)) ∨
      (∃ S, p.2 = .err S ∧ answer n payload p = p.1.respondErr S n) := by
  rcases p with ⟨t, v | S⟩
  · exact .inl ⟨v, rfl, rfl⟩
  · exact .inr ⟨S, rfl, rfl⟩

/-! The buffers -/

theorem reset_memory_wf : Memory.wf State.reset := by
  simp [Memory.wf, State.reset, optionsResetImage, maxCommandSize, maxResponseSize]

/-- Memory.wf reads the buffers and the options image only. -/
theorem memory_wf_congr {s t : State} (hd : t.disp.cmdFrame = s.disp.cmdFrame)
    (hr : t.disp.rspFrame = s.disp.rspFrame) (ho : t.options = s.options) : Memory.wf t ↔ Memory.wf s := by
  simp [Memory.wf, hd, hr, ho]

theorem recordFrame_memory_wf {s : State} (h : Memory.wf s) (bs : List Byte) : Memory.wf (s.recordFrame bs) := by
  obtain ⟨h1, h2, h3⟩ := h
  exact ⟨by simp [List.length_take], h2, h3⟩

theorem respond_memory_wf {s : State} (h : Memory.wf s) (S : Status) {p : List Byte}
    (hp : p.length + 1 ≤ maxResponseSize) : Memory.wf (s.respond S p) := by
  obtain ⟨h1, h2, h3⟩ := h
  exact ⟨h1, by simpa using hp, h3⟩

theorem respondErr_memory_wf {s : State} (h : Memory.wf s) (S : Status) {n : Nat} (hn : n + 1 ≤ maxResponseSize) :
    Memory.wf (s.respondErr S n) := by
  obtain ⟨h1, h2, h3⟩ := h
  exact ⟨h1, by simpa using hn, h3⟩

theorem setOption_memory_wf {s : State} (h : Memory.wf s) (i : Nat) (b : Byte) : Memory.wf (s.setOption i b) := by
  obtain ⟨h1, h2, h3⟩ := h
  exact ⟨h1, h2, by simpa using h3⟩

theorem setOptions_memory_wf {s : State} (h : Memory.wf s) {image : List Byte} (hl : image.length = optionsSize) :
    Memory.wf (s.setOptions image) := ⟨h.1, h.2.1, hl⟩

theorem setMemPos_memory_wf {s : State} (h : Memory.wf s) (i : Nat) (a : Half) : Memory.wf (s.setMemPos i a) := h

end Sys2Proof.Laws
end

