-- ==== Sys2Proof/Laws/Engine.lean ====
section
/-! SUPPORT. The engine's operations: what each can do, said once, and what each leaves alone. -/

namespace Sys2Proof.Laws

open Sys2Proof.Machine

/-! What no engine operation touches -/

/-- `t` agrees with `s` on everything the engine does not own: cableStatus, the options, the dispatcher's buffers and
position, and the ports other than the answers, the free values and the trace. -/
structure EngineFrame (s t : State) : Prop where
  cable : t.cable = s.cable
  options : t.options = s.options
  disp : t.disp = s.disp
  inbox : t.io.inbox = s.io.inbox
  power : t.io.powerSamples = s.io.powerSamples
  responses : t.io.responses = s.io.responses
  results : t.io.results = s.io.results
  seq : t.eng.seq = s.eng.seq

theorem engineFrame_refl (s : State) : EngineFrame s s := ⟨rfl, rfl, rfl, rfl, rfl, rfl, rfl, rfl⟩

theorem engineFrame_trans {s t u : State} (h : EngineFrame s t) (k : EngineFrame t u) : EngineFrame s u :=
  ⟨k.cable.trans h.cable, k.options.trans h.options, k.disp.trans h.disp, k.inbox.trans h.inbox,
   k.power.trans h.power, k.responses.trans h.responses, k.results.trans h.results, k.seq.trans h.seq⟩

theorem engineFrame_weWait (s : State) : EngineFrame s s.weWait.2 := by constructor <;> simp

/-! Claim -/

theorem ensureClaimed_of_claimed {s : State} (h : s.eng.claimed = true) : ensureClaimed s = s := by
  simp [ensureClaimed, h]

theorem ensureClaimed_of_unclaimed {s : State} (h : s.eng.claimed = false) :
    ensureClaimed s = s.weClaim.setClaimed := by simp [ensureClaimed, h]

/-- What `ensureClaimed` does (R130), in one form. -/
theorem ensureClaimed_state (s : State) :
    ensureClaimed s =
      { s with
        eng := { s.eng with claimed := true }
        io := { s.io with trace := s.io.trace ++ claimEvents s } } := by
  cases h : s.eng.claimed
  · rw [ensureClaimed_of_unclaimed h]
    apply State.ext <;> simp [claimEvents, h]
  · rw [ensureClaimed_of_claimed h]
    apply State.ext <;> simp [claimEvents, h]
    rw [← h]

@[simp] theorem ensureClaimed_eng (s : State) : (ensureClaimed s).eng = { s.eng with claimed := true } := by
  rw [ensureClaimed_state]
@[simp] theorem ensureClaimed_cable (s : State) : (ensureClaimed s).cable = s.cable := by rw [ensureClaimed_state]
@[simp] theorem ensureClaimed_options (s : State) : (ensureClaimed s).options = s.options := by
  rw [ensureClaimed_state]
@[simp] theorem ensureClaimed_we (s : State) : (ensureClaimed s).we = s.we := by rw [ensureClaimed_state]
@[simp] theorem ensureClaimed_disp (s : State) : (ensureClaimed s).disp = s.disp := by rw [ensureClaimed_state]
@[simp] theorem ensureClaimed_io (s : State) :
    (ensureClaimed s).io = { s.io with trace := s.io.trace ++ claimEvents s } := by rw [ensureClaimed_state]

theorem engineFrame_ensureClaimed (s : State) : EngineFrame s (ensureClaimed s) := by constructor <;> simp

/-! Synchronize -/

@[simp] theorem syncOutcome_timeout : syncOutcome .timeout = none := rfl

theorem syncOutcome_done (w : Word) : syncOutcome (.done w) = (tickFrequency w).map fun f => (w, f) := rfl

/-- An accepted answer is Done of a word whose tick frequency is the one kept (R135). -/
theorem syncOutcome_some {a : WeAnswer} {w : Word} {f : Rat} (h : syncOutcome a = some (w, f)) :
    a = .done w ∧ tickFrequency w = some f := by
  cases a with
  | timeout => simp [syncOutcome] at h
  | done v =>
    simp only [syncOutcome, Option.map_eq_some_iff, Prod.mk.injEq] at h
    obtain ⟨g, hg, rfl, rfl⟩ := h
    exact ⟨rfl, hg⟩

/-- An accepted tick count gives its own frequency, and that frequency's divider is legal (R135, R136). -/
theorem tickFrequency_some {w : Word} {f : Rat} (h : tickFrequency w = some f) :
    w ≠ 0 ∧ w.toNat ≤ 0xFFFF ∧ f = syncFrequency w.toNat ∧ dividerLegal (clockDivider f) = true := by
  unfold tickFrequency at h
  split at h
  · cases h
  · rename_i hw
    split at h
    · rename_i hd
      cases h
      exact ⟨fun e => hw (.inl e), by omega, rfl, hd⟩
    · cases h

/-- What WE_LOAD(PROG_SYNC) and WE_SYNC do to the state (R131, R133). -/
theorem syncLoadPhase_state (s : State) :
    syncLoadPhase s =
      { s with
        eng := { s.eng with progLoaded := false }
        we := { s.we with program := some .sync, divider := divSync, outstanding := some .sync }
        io := { s.io with trace := s.io.trace ++ [.request (.load .sync divSync), .request .sync] } } := by
  apply State.ext <;> simp [syncLoadPhase]

/-- A synchronize whose answer is accepted (R138). -/
theorem measureClock_ok {s : State} {w : Word} {f : Rat} (h : syncOutcome s.nextAnswer = some (w, f)) :
    measureClock s =
      ({ s.popAnswer with
          eng :=
            { s.eng with
              claimed := true, progLoaded := false, clockKnown := true, fPio := f, syncTicks := w.extractLsb' 0 16 }
          we := { s.we with program := some .sync, divider := divSync, outstanding := none, rxChannel := none }
          io := { s.popAnswer.io with trace := s.io.trace ++ syncEvents s s.nextAnswer } },
        .ok f) := by
  have hw := weWait_after (s := s) (t := syncLoadPhase (ensureClaimed s)) (by simp [syncLoadPhase_state])
    (by simp [syncLoadPhase_state])
  simp only [measureClock, syncAnswerPhase, hw, h, Prod.mk.injEq, and_true]
  apply State.ext <;> simp [syncLoadPhase_state, syncEvents]

/-- A synchronize whose answer is not accepted (R135, R137). -/
theorem measureClock_err {s : State} (h : syncOutcome s.nextAnswer = none) :
    measureClock s =
      ({ s.popAnswer with
          eng := { s.eng with claimed := true, progLoaded := false, clockKnown := false }
          we := { s.we with program := some .sync, divider := divSync, outstanding := none, rxChannel := none }
          io := { s.popAnswer.io with trace := s.io.trace ++ syncEvents s s.nextAnswer } },
        .err .syncTimeout) := by
  have hw := weWait_after (s := s) (t := syncLoadPhase (ensureClaimed s)) (by simp [syncLoadPhase_state])
    (by simp [syncLoadPhase_state])
  simp only [measureClock, syncAnswerPhase, hw, h, Prod.mk.injEq, and_true]
  apply State.ext <;> simp [syncLoadPhase_state, syncEvents]

/-- Everything a synchronize can do: the two cases above. -/
theorem measureClock_cases (s : State) :
    (∃ w f, syncOutcome s.nextAnswer = some (w, f) ∧ (measureClock s).2 = .ok f) ∨
      (syncOutcome s.nextAnswer = none ∧ (measureClock s).2 = .err .syncTimeout) := by
  cases h : syncOutcome s.nextAnswer with
  | none => exact .inr ⟨rfl, by rw [measureClock_err h]⟩
  | some p => exact .inl ⟨p.1, p.2, rfl, by rw [measureClock_ok (w := p.1) (f := p.2) h]⟩

theorem engineFrame_measureClock (s : State) : EngineFrame s (measureClock s).1 := by
  cases h : syncOutcome s.nextAnswer with
  | none => rw [measureClock_err h]; constructor <;> simp
  | some p => rw [measureClock_ok (w := p.1) (f := p.2) h]; constructor <;> simp

/-! Transaction -/

/-- The WE's program memory after SEQ_TXN_LOAD (R141). -/
def afterLoad (s : State) : WePort :=
  if s.eng.progLoaded then s.we else { s.we with program := some .txn, divider := clockDivider s.eng.fPio }

theorem txnLoadPhase_state (s : State) :
    txnLoadPhase s =
      { s with
        eng := { s.eng with progLoaded := true }
        we := afterLoad s
        io := { s.io with trace := s.io.trace ++ loadEvents s } } := by
  cases h : s.eng.progLoaded
  · apply State.ext <;> simp [txnLoadPhase, afterLoad, loadEvents, h]
  · apply State.ext <;> simp [txnLoadPhase, afterLoad, loadEvents, h]
    rw [← h]

/-- Load and shift, answered (R141, R144, R146). -/
theorem shiftTransaction_done {s : State} {w : Word} (h : s.nextAnswer = .done w) :
    shiftTransaction s =
      ({ s.popAnswer with
          eng := { s.eng with progLoaded := true, rxWord := w }
          we := { afterLoad s with outstanding := none, rxChannel := none }
          io :=
            { s.popAnswer.io with
              trace :=
                s.io.trace ++ loadEvents s ++
                  [.request (.shift s.eng.txWord s.eng.txBits s.eng.rxBits), .answer (.done w)] } },
        .ok (receivedOf s.eng.rxBits w)) := by
  have hw := weWait_after (s := s) (t := shiftPhase (txnLoadPhase s)) (by simp [shiftPhase, txnLoadPhase_state])
    (by simp [shiftPhase, txnLoadPhase_state])
  simp only [shiftTransaction, shiftAnswerPhase, hw, h, Prod.mk.injEq]
  refine ⟨?_, by simp [shiftPhase, txnLoadPhase_state]⟩
  apply State.ext <;> simp [shiftPhase, txnLoadPhase_state]

/-- Load and shift, timed out (R145). -/
theorem shiftTransaction_timeout {s : State} (h : s.nextAnswer = .timeout) :
    shiftTransaction s =
      ({ s.popAnswer with
          eng := { s.eng with progLoaded := false, clockKnown := false }
          we := { afterLoad s with outstanding := none, rxChannel := none }
          io :=
            { s.popAnswer.io with
              trace :=
                s.io.trace ++ loadEvents s ++
                  [.request (.shift s.eng.txWord s.eng.txBits s.eng.rxBits), .answer .timeout] } },
        .err .bkgdTimeout) := by
  have hw := weWait_after (s := s) (t := shiftPhase (txnLoadPhase s)) (by simp [shiftPhase, txnLoadPhase_state])
    (by simp [shiftPhase, txnLoadPhase_state])
  simp only [shiftTransaction, shiftAnswerPhase, hw, h, Prod.mk.injEq, and_true]
  apply State.ext <;> simp [shiftPhase, txnLoadPhase_state]

theorem engineFrame_shiftTransaction (s : State) : EngineFrame s (shiftTransaction s).1 := by
  cases h : s.nextAnswer with
  | timeout => rw [shiftTransaction_timeout h]; constructor <;> simp
  | done w => rw [shiftTransaction_done h]; constructor <;> simp

/-- A transaction whose clock is known: claim, load, shift (R140). -/
theorem transactBody_of_known {s : State} (h : s.eng.clockKnown = true) (op : Byte) (P nt nr : Nat) :
    transactBody op P nt nr s = shiftTransaction (ensureClaimed (s.latch op P nt nr)) := by simp [transactBody, h]

/-- A transaction whose implicit synchronize succeeds goes on to load and shift (R140). -/
theorem transactBody_of_unknown_ok {s : State} (h : s.eng.clockKnown = false) {w : Word} {f : Rat}
    (ha : syncOutcome s.nextAnswer = some (w, f)) (op : Byte) (P nt nr : Nat) :
    transactBody op P nt nr s = shiftTransaction (measureClock (ensureClaimed (s.latch op P nt nr))).1 := by
  have hn : (ensureClaimed (s.latch op P nt nr)).nextAnswer = s.nextAnswer := nextAnswer_congr (by simp) (by simp)
  simp [transactBody, h, measureClock_ok (hn ▸ ha)]

/-- A transaction whose implicit synchronize fails shifts nothing (R140, R327). -/
theorem transactBody_of_unknown_err {s : State} (h : s.eng.clockKnown = false) (ha : syncOutcome s.nextAnswer = none)
    (op : Byte) (P nt nr : Nat) :
    transactBody op P nt nr s =
      ((measureClock (ensureClaimed (s.latch op P nt nr))).1, .err .syncTimeout) := by
  have hn : (ensureClaimed (s.latch op P nt nr)).nextAnswer = s.nextAnswer := nextAnswer_congr (by simp) (by simp)
  simp [transactBody, h, measureClock_err (hn ▸ ha)]

/-- Everything a transaction can do: the three cases above. -/
theorem transactBody_cases (op : Byte) (P nt nr : Nat) (s : State) :
    (s.eng.clockKnown = true ∧
        transactBody op P nt nr s = shiftTransaction (ensureClaimed (s.latch op P nt nr))) ∨
      (∃ w f, s.eng.clockKnown = false ∧ syncOutcome s.nextAnswer = some (w, f) ∧
        transactBody op P nt nr s = shiftTransaction (measureClock (ensureClaimed (s.latch op P nt nr))).1) ∨
      (s.eng.clockKnown = false ∧ syncOutcome s.nextAnswer = none ∧
        transactBody op P nt nr s =
          ((measureClock (ensureClaimed (s.latch op P nt nr))).1, .err .syncTimeout)) := by
  cases h : s.eng.clockKnown
  · cases ha : syncOutcome s.nextAnswer with
    | none => exact .inr (.inr ⟨rfl, rfl, transactBody_of_unknown_err h ha op P nt nr⟩)
    | some p => exact .inr (.inl ⟨p.1, p.2, rfl, rfl, transactBody_of_unknown_ok h (w := p.1) (f := p.2) ha op P nt nr⟩)
  · exact .inl ⟨rfl, transactBody_of_known h op P nt nr⟩

theorem engineFrame_latch (op : Byte) (P nt nr : Nat) (s : State) : EngineFrame s (s.latch op P nt nr) := by
  constructor <;> simp

theorem engineFrame_transactBody (op : Byte) (P nt nr : Nat) (s : State) :
    EngineFrame s (transactBody op P nt nr s).1 := by
  have h0 := engineFrame_trans (engineFrame_latch op P nt nr s) (engineFrame_ensureClaimed _)
  rcases transactBody_cases op P nt nr s with ⟨_, h⟩ | ⟨_, _, _, _, h⟩ | ⟨_, _, h⟩ <;> rw [h]
  · exact engineFrame_trans h0 (engineFrame_shiftTransaction _)
  · exact engineFrame_trans h0 (engineFrame_trans (engineFrame_measureClock _) (engineFrame_shiftTransaction _))
  · exact engineFrame_trans h0 (engineFrame_measureClock _)

theorem engineFrame_released {α : Type} {s : State} {p : State × α} (h : EngineFrame s p.1) :
    EngineFrame s (released p).1 :=
  ⟨h.cable, h.options, h.disp, h.inbox, h.power, h.responses, h.results, h.seq⟩

theorem engineFrame_synchronize (s : State) : EngineFrame s (synchronize s).1 :=
  engineFrame_released (engineFrame_trans (t := s.setCont .ret) (by constructor <;> simp) (engineFrame_measureClock _))

theorem engineFrame_transact (op : Byte) (P nt nr : Nat) (s : State) :
    EngineFrame s (transact op P nt nr s).1 := engineFrame_released (engineFrame_transactBody op P nt nr s)

theorem transactionPre_iff (P nt nr : Nat) :
    transactionPre P nt nr = true ↔ 8 ≤ nt ∧ nt ≤ 32 ∧ nr ≤ 32 ∧ P < 2 ^ (nt - 8) := by
  simp only [transactionPre, Bool.and_eq_true, decide_eq_true_eq, and_assoc]
  exact Iff.rfl

end Sys2Proof.Laws
end

