-- ==== Sys2Proof/Laws/Bdm.lean ====
section
/-! SUPPORT. The wrapper `bdmCmd`: what it can do, said once; transmit words and received values in the spec's form;
everything one transaction can do, from every state; and one BDM command on a warm engine and at the engine interface. -/

namespace Sys2Proof.Laws

open Sys2Proof.Machine

/-! The wrapper -/

theorem isValidBdmCommand_code (o : BdmOp) : isValidBdmCommand o.code = true := by cases o <;> decide

@[simp] theorem bdmCmd_code (o : BdmOp) (args : List Nat) (s : State) :
    bdmCmd o.code args s = bdmRun o args s := by simp [bdmCmd, isValidBdmCommand_code]

/-- The transaction a BDM command's row asks for (R180, R181). -/
def rowTransact (o : BdmOp) (args : List Nat) (s : State) : State × Reply Word :=
  transact o.code (packFields o.format.fields args 0) o.format.txBits o.format.rxBits s

/-- Everything `bdmRun` can do (R180). -/
theorem bdmRun_cases (o : BdmOp) (args : List Nat) (s : State) :
    (∃ S, (rowTransact o args s).2 = .err S ∧ bdmRun o args s = ((rowTransact o args s).1, .err S)) ∨
      (∃ v, (rowTransact o args s).2 = .ok v ∧
        bdmRun o args s =
          (if clearsClock o then (rowTransact o args s).1.clearClock else (rowTransact o args s).1,
            .ok (unpack o v))) := by
  unfold bdmRun rowTransact
  split
  · rename_i s1 S h
    exact .inl ⟨S, by rw [h], by rw [h]⟩
  · rename_i s1 v h
    exact .inr ⟨v, by rw [h], by rw [h]⟩

theorem engineFrame_clearClock (s : State) : EngineFrame s s.clearClock := by constructor <;> simp

theorem engineFrame_bdmRun (o : BdmOp) (args : List Nat) (s : State) : EngineFrame s (bdmRun o args s).1 := by
  have h0 : EngineFrame s (rowTransact o args s).1 := engineFrame_transact _ _ _ _ s
  rcases bdmRun_cases o args s with ⟨S, _, h⟩ | ⟨v, _, h⟩ <;> rw [h]
  · exact h0
  · cases clearsClock o
    · exact h0
    · exact engineFrame_trans h0 (engineFrame_clearClock _)

/-! Transmit words (R91, R143) -/

theorem txWordOf_b0 (op : Byte) : txWordOf op 0 8 = op.setWidth 32 := by
  apply BitVec.eq_of_toNat_eq
  simp [txWordOf]

theorem txWordOf_b3 (op d : Byte) : txWordOf op (packFields [8] [d.toNat] 0) 16 = (op ++ d).setWidth 32 := by
  apply BitVec.eq_of_toNat_eq
  rw [BitVec.toNat_setWidth, toNat_append_eq]
  simp [txWordOf, packFields, Nat.mod_eq_of_lt d.isLt]

theorem txWordOf_b5 (op : Byte) (v : Half) :
    txWordOf op (packFields [16] [v.toNat] 0) 24 = (op ++ v).setWidth 32 := by
  apply BitVec.eq_of_toNat_eq
  rw [BitVec.toNat_setWidth, toNat_append_eq]
  simp [txWordOf, packFields, Nat.mod_eq_of_lt v.isLt]

theorem txWordOf_b8 (op d : Byte) (a : Half) :
    txWordOf op (packFields [16, 8] [a.toNat, d.toNat] 0) 32 = op ++ (a ++ d) := by
  apply BitVec.eq_of_toNat_eq
  have h1 := op.isLt
  have h2 := d.isLt
  have h3 := a.isLt
  rw [toNat_append_eq, toNat_append_eq]
  simp [txWordOf, packFields]
  omega

/-- The transmit word within the preconditions of R142: nothing of the opcode or the parameter is lost. -/
theorem txWordOf_toNat {op : Byte} {P nt : Nat} (h1 : 8 ≤ nt) (h2 : nt ≤ 32) (h : P < 2 ^ (nt - 8)) :
    (txWordOf op P nt).toNat = op.toNat * 2 ^ (nt - 8) + P := by
  simp only [txWordOf, BitVec.toNat_ofNat]
  apply Nat.mod_eq_of_lt
  have hop := op.isLt
  have e : 2 ^ 32 = 2 ^ 8 * 2 ^ (nt - 8) * 2 ^ (32 - nt) := by
    rw [← pow_add, ← pow_add]
    congr 1
    omega
  have hlt : op.toNat * 2 ^ (nt - 8) + P < 2 ^ 8 * 2 ^ (nt - 8) := by nlinarith
  have hpos : 0 < 2 ^ (32 - nt) := by positivity
  rw [e]
  nlinarith

/-- The parameters of a row, packed, fit the row's width. -/
theorem packFields_lt (ws : List Nat) : ∀ (args : List Nat) (acc k : Nat), acc < 2 ^ k →
    packFields ws args acc < 2 ^ (k + ws.sum) := by
  induction ws with
  | nil =>
    intro args acc k h
    simpa [packFields] using h
  | cons w ws ih =>
    intro args acc k h
    have hlt : acc * 2 ^ w + args.headD 0 % 2 ^ w < 2 ^ (k + w) := by
      have h1 : args.headD 0 % 2 ^ w < 2 ^ w := Nat.mod_lt _ (by positivity)
      have h2 := Nat.mul_le_mul_right (2 ^ w) (Nat.succ_le_of_lt h)
      rw [Nat.succ_mul] at h2
      rw [pow_add]
      omega
    simpa [packFields, add_assoc] using ih args.tail _ (k + w) hlt

/-! Received values (R146, R183) -/

/-- The received value as a number (R146). -/
theorem receivedOf_toNat (w : Word) {nr : Nat} (h : nr ≤ 32) :
    (receivedOf (BitVec.ofNat 6 nr) w).toNat = w.toNat % 2 ^ nr := by
  simp only [receivedOf, BitVec.toNat_ofNat]
  rw [Nat.mod_eq_of_lt (show nr < 2 ^ 6 by omega)]
  exact Nat.mod_eq_of_lt (lt_of_le_of_lt (Nat.mod_le _ _) w.isLt)

@[simp] theorem receivedOf_zero (w : Word) : receivedOf 0#6 w = 0 := by
  simp [receivedOf, Nat.mod_one]

@[simp] theorem receivedOf_low8 (w : Word) : (receivedOf 8#6 w).extractLsb' 0 8 = w.extractLsb' 0 8 := by
  apply BitVec.eq_of_toNat_eq
  simp [receivedOf, BitVec.extractLsb'_toNat]

@[simp] theorem receivedOf_low16 (w : Word) : (receivedOf 16#6 w).extractLsb' 0 16 = w.extractLsb' 0 16 := by
  apply BitVec.eq_of_toNat_eq
  simp [receivedOf, BitVec.extractLsb'_toNat]

@[simp] theorem receivedOf_low8_of16 (w : Word) : (receivedOf 16#6 w).extractLsb' 0 8 = w.extractLsb' 0 8 := by
  apply BitVec.eq_of_toNat_eq
  simp [receivedOf, BitVec.extractLsb'_toNat]

@[simp] theorem receivedOf_high8_of16 (w : Word) : (receivedOf 16#6 w).extractLsb' 8 8 = w.extractLsb' 8 8 := by
  apply BitVec.eq_of_toNat_eq
  simp [receivedOf, BitVec.extractLsb'_toNat, Nat.shiftRight_eq_div_pow]
  omega

/-! Everything a transaction can do -/

/-- The reply of a transaction whose WE_SHIFT was answered with `a` (R145, R146). -/
def shiftReply (nr : Nat) : WeAnswer → Reply Word
  | .done w => .ok (receivedOf (BitVec.ofNat 6 nr) w)
  | .timeout => .err .bkgdTimeout

/-- The clock known: claim and load where they are missing, then the shift (R140). -/
theorem transact_known {s : State} (hk : s.eng.clockKnown = true) (op : Byte) (P nt nr : Nat) :
    transact op P nt nr s =
      (knownShift (txWordOf op P nt) nt nr s.nextAnswer s, shiftReply nr s.nextAnswer) := by
  have hn : (ensureClaimed (s.latch op P nt nr)).nextAnswer = s.nextAnswer := nextAnswer_congr (by simp) (by simp)
  have hp := popAnswer_eq (s := s) (t := ensureClaimed (s.latch op P nt nr)) (by simp) (by simp)
  rw [transact, transactBody_of_known hk]
  cases ha : s.nextAnswer with
  | done w =>
    rw [shiftTransaction_done (hn.trans ha), hp]
    refine Prod.ext (releaseLatches_congr ?_ ?_ ?_ ?_ ?_ ?_) (by simp [released, shiftReply]) <;>
      simp [restingEq, afterLoad, loadEvents, claimEvents, shiftEvents, hk]
    split <;> simp
  | timeout =>
    rw [shiftTransaction_timeout (hn.trans ha), hp]
    refine Prod.ext (releaseLatches_congr ?_ ?_ ?_ ?_ ?_ ?_) rfl <;>
      simp [restingEq, afterLoad, loadEvents, claimEvents, shiftEvents]
    · split <;> simp
    · rfl

/-- The clock unknown, the implicit synchronize accepted: the shift comes from the state after it (R140, R141). -/
theorem transact_unknown_ok {s : State} (hk : s.eng.clockKnown = false) {v : Word} {f : Rat}
    (ha : s.nextAnswer = .done v) (hf : tickFrequency v = some f) (op : Byte) (P nt nr : Nat) :
    transact op P nt nr s =
      (knownShift (txWordOf op P nt) nt nr s.popAnswer.nextAnswer (afterMeasure v f s),
        shiftReply nr s.popAnswer.nextAnswer) := by
  have hs : syncOutcome s.nextAnswer = some (v, f) := by
    rw [ha, syncOutcome_done, hf]
    rfl
  have hn : (ensureClaimed (s.latch op P nt nr)).nextAnswer = s.nextAnswer := nextAnswer_congr (by simp) (by simp)
  have hp := popAnswer_eq (s := s) (t := ensureClaimed (s.latch op P nt nr)) (by simp) (by simp)
  have hm : (afterMeasure v f s).nextAnswer = s.popAnswer.nextAnswer := nextAnswer_congr rfl rfl
  rw [← hm, ← transact_known (s := afterMeasure v f s) rfl, transact, transact, transactBody_of_unknown_ok hk hs,
    transactBody_of_known (s := afterMeasure v f s) rfl, measureClock_ok (hn ▸ hs), hp, hn, ha]
  refine congrArg released (congrArg shiftTransaction ?_)
  apply State.ext <;> simp [afterMeasure, syncEvents, claimEvents]
  rfl

/-- The clock unknown, the implicit synchronize refused: nothing is shifted (R137, R140, R327). -/
theorem transact_unknown_err {s : State} (hk : s.eng.clockKnown = false) (ha : syncOutcome s.nextAnswer = none)
    (op : Byte) (P nt nr : Nat) : transact op P nt nr s = (afterSyncFailure s, .err .syncTimeout) := by
  have hn : (ensureClaimed (s.latch op P nt nr)).nextAnswer = s.nextAnswer := nextAnswer_congr (by simp) (by simp)
  have hp := popAnswer_eq (s := s) (t := ensureClaimed (s.latch op P nt nr)) (by simp) (by simp)
  rw [transact, transactBody_of_unknown_err hk ha, measureClock_err (hn ▸ ha), hp]
  refine Prod.ext (releaseLatches_congr ?_ ?_ ?_ ?_ ?_ ?_) rfl <;> simp [restingEq, syncEvents, claimEvents, hn]
  rfl

/-! A warm engine -/

theorem knownShift_warm_done {s : State} (h : Warm s) (tx : Word) (nt nr : Nat) (w : Word) :
    knownShift tx nt nr (.done w) s = warmShift tx nt nr w s := by
  refine releaseLatches_congr ?_ ?_ ?_ ?_ ?_ ?_ <;>
    simp [restingEq, loadEvents, claimEvents, h.claimed, h.clockKnown, h.progLoaded]

theorem knownShift_warm_timeout {s : State} (h : Warm s) (tx : Word) (nt nr : Nat) :
    knownShift tx nt nr .timeout s = warmTimeout tx nt nr s := by
  refine releaseLatches_congr ?_ ?_ ?_ ?_ ?_ ?_ <;>
    simp [restingEq, loadEvents, claimEvents, h.claimed, h.progLoaded]

/-- A transaction on a warm engine, answered (R140, R144, R146). -/
theorem transact_warm_done {s : State} (h : Warm s) {w : Word} (ha : s.nextAnswer = .done w) (op : Byte)
    (P nt nr : Nat) :
    transact op P nt nr s = (warmShift (txWordOf op P nt) nt nr w s, .ok (receivedOf (BitVec.ofNat 6 nr) w)) := by
  rw [transact_known h.clockKnown, ha, knownShift_warm_done h, shiftReply]

/-- A transaction on a warm engine that times out (R145). -/
theorem transact_warm_timeout {s : State} (h : Warm s) (ha : s.nextAnswer = .timeout) (op : Byte) (P nt nr : Nat) :
    transact op P nt nr s = (warmTimeout (txWordOf op P nt) nt nr s, .err .bkgdTimeout) := by
  rw [transact_known h.clockKnown, ha, knownShift_warm_timeout h, shiftReply]

/-- A BDM command on a warm engine, answered (R180). -/
theorem bdmRun_warm_done {s : State} (h : Warm s) {w : Word} (ha : s.nextAnswer = .done w) (o : BdmOp)
    (args : List Nat) :
    bdmRun o args s =
      (let t :=
          warmShift (txWordOf o.code (packFields o.format.fields args 0) o.format.txBits) o.format.txBits
            o.format.rxBits w s
        if clearsClock o then t.clearClock else t,
        .ok (unpack o (receivedOf (BitVec.ofNat 6 o.format.rxBits) w))) := by
  simp only [bdmRun, transact_warm_done h ha]

/-- A BDM command on a warm engine that times out (R145, R180). -/
theorem bdmRun_warm_timeout {s : State} (h : Warm s) (ha : s.nextAnswer = .timeout) (o : BdmOp) (args : List Nat) :
    bdmRun o args s =
      (warmTimeout (txWordOf o.code (packFields o.format.fields args 0) o.format.txBits) o.format.txBits
          o.format.rxBits s, .err .bkgdTimeout) := by
  simp only [bdmRun, transact_warm_timeout h ha]

/-! The position inside a memory command, which no BDM command reads or writes -/

theorem popAnswer_setMemPos (s : State) (i : Nat) (a : Half) :
    (s.setMemPos i a).popAnswer = s.popAnswer.setMemPos i a := by
  cases h : s.io.weAnswers <;> simp [State.popAnswer, State.setMemPos, h]

theorem nextAnswer_setMemPos (s : State) (i : Nat) (a : Half) : (s.setMemPos i a).nextAnswer = s.nextAnswer := rfl

theorem knownShift_setMemPos (tx : Word) (nt nr : Nat) (x : WeAnswer) (s : State) (i : Nat) (a : Half) :
    knownShift tx nt nr x (s.setMemPos i a) = (knownShift tx nt nr x s).setMemPos i a := by
  simp only [knownShift, popAnswer_setMemPos]
  rfl

theorem afterMeasure_setMemPos (v : Word) (f : Rat) (s : State) (i : Nat) (a : Half) :
    afterMeasure v f (s.setMemPos i a) = (afterMeasure v f s).setMemPos i a := by
  simp only [afterMeasure, popAnswer_setMemPos]
  rfl

theorem afterSyncFailure_setMemPos (s : State) (i : Nat) (a : Half) :
    afterSyncFailure (s.setMemPos i a) = (afterSyncFailure s).setMemPos i a := by
  simp only [afterSyncFailure, popAnswer_setMemPos, nextAnswer_setMemPos]
  rfl

theorem transact_setMemPos (op : Byte) (P nt nr : Nat) (s : State) (i : Nat) (a : Half) :
    transact op P nt nr (s.setMemPos i a) =
      ((transact op P nt nr s).1.setMemPos i a, (transact op P nt nr s).2) := by
  cases hk : s.eng.clockKnown
  · cases hs : syncOutcome s.nextAnswer with
    | none =>
      rw [transact_unknown_err hk hs, transact_unknown_err (s := s.setMemPos i a) hk hs, afterSyncFailure_setMemPos]
    | some p =>
      obtain ⟨h1, h2⟩ := syncOutcome_some (w := p.1) (f := p.2) hs
      rw [transact_unknown_ok hk h1 h2, transact_unknown_ok (s := s.setMemPos i a) hk h1 h2, afterMeasure_setMemPos,
        knownShift_setMemPos, popAnswer_setMemPos, nextAnswer_setMemPos]
  · rw [transact_known hk, transact_known (s := s.setMemPos i a) hk, nextAnswer_setMemPos, knownShift_setMemPos]

theorem bdmRun_setMemPos (o : BdmOp) (args : List Nat) (s : State) (i : Nat) (a : Half) :
    bdmRun o args (s.setMemPos i a) = ((bdmRun o args s).1.setMemPos i a, (bdmRun o args s).2) := by
  simp only [bdmRun, transact_setMemPos]
  rcases transact o.code (packFields o.format.fields args 0) o.format.txBits o.format.rxBits s with ⟨t, r | S⟩
  · cases clearsClock o <;> rfl
  · rfl

/-! The engine interface -/

/-- The parameters of a BDM command, in the order of its row (R181). -/
def argsOf : Instr → List Nat
  | .writeA d | .writeCcr d | .writeNext d | .writeNextWs d | .writeControl d => [d.toNat]
  | .writePc v | .writeHx v | .writeSp v | .writeBkpt v => [v.toNat]
  | .readByte a | .readByteWs a => [a.toNat]
  | .writeByte a d | .writeByteWs a d => [a.toNat, d.toNat]
  | _ => []

/-- Every BDM command at the engine interface is the wrapper on its own row, its reply pushed to the caller (R180). -/
theorem exec_bdm {i : Instr} {o : BdmOp} (h : i.bdmOp = some o) (s : State) :
    exec i s = .next ((bdmRun o (argsOf i) s).1.pushResult (bdmRun o (argsOf i) s).2) := by
  cases i <;> cases h <;> (simp only [← bdmCmd_code]; rfl)

/-- A BDM command's state and result, apart (R180). -/
theorem called_bdm {i : Instr} {o : BdmOp} (h : i.bdmOp = some o) (s : State) : called i s = bdmRun o (argsOf i) s := by
  have hf := (engineFrame_bdmRun o (argsOf i) s).results
  simp only [called, exec_bdm h]
  apply Prod.ext
  · apply State.ext <;> simp
    apply Ports.ext <;> simp [hf]
  · simp

end Sys2Proof.Laws
end

