-- ==== Sys2Proof/Laws/Host.lean ====
section
/-! SUPPORT. The host commands' shared operations: one BDM command with a response, and the byte loops of the memory
commands and of the software reset. -/

namespace Sys2Proof.Laws

open Sys2Proof.Machine

@[simp] theorem commandOnly_eq (o : BdmOp) (args : List Nat) (s : State) :
    commandOnly o args s = answer 0 (fun _ => []) (bdmRun o args s) := by simp [commandOnly]

@[simp] theorem commandRead_eq (o : BdmOp) (s : State) :
    commandRead o s = answer 4 EngineResult.payload4 (bdmRun o [] s) := by simp [commandRead]

theorem memWrite_eq (a : Half) (d : Byte) (s : State) : memWrite a d s = bdmRun .writeByte [a.toNat, d.toNat] s := by
  simp [memWrite]

theorem memRead_eq (a : Half) (s : State) : memRead a s = bdmRun .readByte [a.toNat] s := by simp [memRead]

@[simp] theorem payload4_length (r : EngineResult) : r.payload4.length = 4 := rfl

/-! What a loop leaves alone -/

/-- As `EngineFrame`, but the position inside a memory command may move (R27 (c)). -/
structure LoopFrame (s t : State) : Prop where
  cable : t.cable = s.cable
  options : t.options = s.options
  cmdFrame : t.disp.cmdFrame = s.disp.cmdFrame
  rspFrame : t.disp.rspFrame = s.disp.rspFrame
  inbox : t.io.inbox = s.io.inbox
  power : t.io.powerSamples = s.io.powerSamples
  responses : t.io.responses = s.io.responses
  results : t.io.results = s.io.results
  seq : t.eng.seq = s.eng.seq

theorem loopFrame_refl (s : State) : LoopFrame s s := ⟨rfl, rfl, rfl, rfl, rfl, rfl, rfl, rfl, rfl⟩

theorem loopFrame_trans {s t u : State} (h : LoopFrame s t) (k : LoopFrame t u) : LoopFrame s u :=
  ⟨k.cable.trans h.cable, k.options.trans h.options, k.cmdFrame.trans h.cmdFrame, k.rspFrame.trans h.rspFrame,
   k.inbox.trans h.inbox, k.power.trans h.power, k.responses.trans h.responses, k.results.trans h.results,
   k.seq.trans h.seq⟩

theorem loopFrame_of_engine {s t : State} (h : EngineFrame s t) : LoopFrame s t :=
  ⟨h.cable, h.options, by rw [h.disp], by rw [h.disp], h.inbox, h.power, h.responses, h.results, h.seq⟩

theorem loopFrame_setMemPos (i : Nat) (a : Half) (s : State) : LoopFrame s (s.setMemPos i a) := by
  constructor <;> simp

/-- What a memory command leaves alone, once its loop is over and it has answered OK. -/
theorem memoryFrame_respond {s t : State} (h : LoopFrame s t) (S : Status) (p : List Byte) :
    MemoryFrame s (t.respond S p) := ⟨h.cable, h.options, h.cmdFrame, h.inbox, h.power, h.results, h.seq⟩

/-- What a memory command leaves alone, once its loop is over and it has answered an error. -/
theorem memoryFrame_respondErr {s t : State} (h : LoopFrame s t) (S : Status) (n : Nat) :
    MemoryFrame s (t.respondErr S n) := ⟨h.cable, h.options, h.cmdFrame, h.inbox, h.power, h.results, h.seq⟩

/-! The write loop (R258) -/

theorem writeBytes_nil (i : Nat) (a : Half) (s : State) : writeBytes i a [] s = (s, .ok ()) := rfl

/-- One byte of WRITE_MEM: the loop goes on after an OK and stops after an error. -/
theorem writeBytes_cons (i : Nat) (a : Half) (d : Byte) (ds : List Byte) (s : State) :
    (∃ S, (memWrite a d (s.setMemPos i a)).2 = .err S ∧
        writeBytes i a (d :: ds) s = ((memWrite a d (s.setMemPos i a)).1, .err S)) ∨
      (∃ r, (memWrite a d (s.setMemPos i a)).2 = .ok r ∧
        writeBytes i a (d :: ds) s = writeBytes (i + 1) (a + 1) ds (memWrite a d (s.setMemPos i a)).1) := by
  simp only [writeBytes]
  split
  · rename_i s1 S h
    exact .inl ⟨S, by rw [h], by rw [h]⟩
  · rename_i s1 r h
    exact .inr ⟨r, by rw [h], by rw [h]⟩

theorem loopFrame_memWrite (i : Nat) (a : Half) (d : Byte) (s : State) :
    LoopFrame s (memWrite a d (s.setMemPos i a)).1 := by
  rw [memWrite_eq]
  exact loopFrame_trans (loopFrame_setMemPos i a s) (loopFrame_of_engine (engineFrame_bdmRun _ _ _))

theorem loopFrame_writeBytes (ds : List Byte) : ∀ (i : Nat) (a : Half) (s : State),
    LoopFrame s (writeBytes i a ds s).1 := by
  induction ds with
  | nil => exact fun i a s => loopFrame_refl s
  | cons d ds ih =>
    intro i a s
    rcases writeBytes_cons i a d ds s with ⟨S, _, h⟩ | ⟨r, _, h⟩ <;> rw [h]
    · exact loopFrame_memWrite i a d s
    · exact loopFrame_trans (loopFrame_memWrite i a d s) (ih _ _ _)

/-! The read loop (R259) -/

theorem readBytes_zero (i : Nat) (a : Half) (got : List Byte) (s : State) : readBytes 0 i a got s = (s, .ok got) := rfl

/-- One byte of READ_MEM: the loop goes on after an OK and stops after an error. -/
theorem readBytes_succ (n i : Nat) (a : Half) (got : List Byte) (s : State) :
    (∃ S, (memRead a (s.setMemPos i a)).2 = .err S ∧
        readBytes (n + 1) i a got s = ((memRead a (s.setMemPos i a)).1, .err S)) ∨
      (∃ r, (memRead a (s.setMemPos i a)).2 = .ok r ∧
        readBytes (n + 1) i a got s =
          readBytes n (i + 1) (a + 1) (got ++ [r.toHalf.extractLsb' 0 8]) (memRead a (s.setMemPos i a)).1) := by
  simp only [readBytes]
  split
  · rename_i s1 S h
    exact .inl ⟨S, by rw [h], by rw [h]⟩
  · rename_i s1 r h
    exact .inr ⟨r, by rw [h], by rw [h]⟩

theorem loopFrame_memRead (i : Nat) (a : Half) (s : State) : LoopFrame s (memRead a (s.setMemPos i a)).1 := by
  rw [memRead_eq]
  exact loopFrame_trans (loopFrame_setMemPos i a s) (loopFrame_of_engine (engineFrame_bdmRun _ _ _))

theorem loopFrame_readBytes (n : Nat) : ∀ (i : Nat) (a : Half) (got : List Byte) (s : State),
    LoopFrame s (readBytes n i a got s).1 := by
  induction n with
  | zero => exact fun i a got s => loopFrame_refl s
  | succ n ih =>
    intro i a got s
    rcases readBytes_succ n i a got s with ⟨S, _, h⟩ | ⟨r, _, h⟩ <;> rw [h]
    · exact loopFrame_memRead i a s
    · exact loopFrame_trans (loopFrame_memRead i a s) (ih _ _ _ _)

/-- READ_MEM hands over as many bytes as it was asked for (R259). -/
theorem readBytes_length (n : Nat) : ∀ (i : Nat) (a : Half) (got bs : List Byte) (s : State),
    (readBytes n i a got s).2 = .ok bs → bs.length = got.length + n := by
  induction n with
  | zero =>
    intro i a got bs s h
    cases h
    rfl
  | succ n ih =>
    intro i a got bs s h
    rcases readBytes_succ n i a got s with ⟨S, _, e⟩ | ⟨r, _, e⟩ <;> rw [e] at h
    · cases h
    · rw [ih _ _ _ _ _ h, List.length_append, List.length_singleton, Nat.add_assoc, Nat.add_comm 1 n]

/-! The software reset (R249) -/

theorem softReset_nil (s : State) : softReset [] s = (s.clearClock, .ok ()) := rfl

/-- One command of a reset sequence: it goes on after an OK and stops, the clock cleared, after an error. -/
theorem softReset_cons (c : BdmCall) (cs : List BdmCall) (s : State) :
    (∃ S, (bdmRun c.op c.args s).2 = .err S ∧
        softReset (c :: cs) s = ((bdmRun c.op c.args s).1.clearClock, .err S)) ∨
      (∃ r, (bdmRun c.op c.args s).2 = .ok r ∧
        softReset (c :: cs) s = softReset cs (bdmRun c.op c.args s).1) := by
  simp only [softReset, bdmCmd_code]
  split
  · rename_i s1 S h
    exact .inl ⟨S, by rw [h], by rw [h]⟩
  · rename_i s1 r h
    exact .inr ⟨r, by rw [h], by rw [h]⟩

theorem engineFrame_softReset (cs : List BdmCall) : ∀ s : State, EngineFrame s (softReset cs s).1 := by
  induction cs with
  | nil => exact fun s => engineFrame_clearClock s
  | cons c cs ih =>
    intro s
    have h0 := engineFrame_bdmRun c.op c.args s
    rcases softReset_cons c cs s with ⟨S, _, h⟩ | ⟨r, _, h⟩ <;> rw [h]
    · exact engineFrame_trans h0 (engineFrame_clearClock _)
    · exact engineFrame_trans h0 (ih _)

end Sys2Proof.Laws
end

