-- ==== Sys2Proof/Laws/PerInstr.lean ====
section
/-! SUPPORT. Statements about every instruction as syntax, one lemma per constructor. -/

namespace Sys2Proof.Laws

/-- Every instruction belongs to exactly one of the two levels (R2), and its encoding is the opcode byte with the row's
parameter bytes (R96), or the size byte, the opcode byte and at least minNp parameter bytes (R97, R99). -/
def EncodingLevel.Statement (i : Instr) : Prop :=
  match i.bdmOp, i.hostOp with
  | some o, none => (encode i).length = 1 + o.paramBytes
  | none, some o => (encode i).length = 2 + i.hostParams.length ∧ o.minNp ≤ i.hostParams.length
  | _, _ => False

theorem encodingLevel_of_host {i : Instr} {o : HostOp} (hb : i.bdmOp = none) (ho : i.hostOp = some o)
    (hp : o.minNp ≤ i.hostParams.length) : EncodingLevel.Statement i := by
  simp only [EncodingLevel.Statement, hb, ho]
  refine ⟨?_, hp⟩
  simp only [encode, hb, ho, frameOf, List.length_cons]
  omega

theorem EncodingLevel.ackEnable : EncodingLevel.Statement (.ackEnable) := rfl
theorem EncodingLevel.ackDisabled : EncodingLevel.Statement (.ackDisabled) := rfl
theorem EncodingLevel.background : EncodingLevel.Statement (.background) := rfl
theorem EncodingLevel.go : EncodingLevel.Statement (.go) := rfl
theorem EncodingLevel.trace1 : EncodingLevel.Statement (.trace1) := rfl
theorem EncodingLevel.taggo : EncodingLevel.Statement (.taggo) := rfl
theorem EncodingLevel.readA : EncodingLevel.Statement (.readA) := rfl
theorem EncodingLevel.readCcr : EncodingLevel.Statement (.readCcr) := rfl
theorem EncodingLevel.readPc : EncodingLevel.Statement (.readPc) := rfl
theorem EncodingLevel.readHx : EncodingLevel.Statement (.readHx) := rfl
theorem EncodingLevel.readSp : EncodingLevel.Statement (.readSp) := rfl
theorem EncodingLevel.readNext : EncodingLevel.Statement (.readNext) := rfl
theorem EncodingLevel.readNextWs : EncodingLevel.Statement (.readNextWs) := rfl
theorem EncodingLevel.writeA (d : Byte) : EncodingLevel.Statement (.writeA d) := rfl
theorem EncodingLevel.writeCcr (d : Byte) : EncodingLevel.Statement (.writeCcr d) := rfl
theorem EncodingLevel.writePc (v : Half) : EncodingLevel.Statement (.writePc v) := rfl
theorem EncodingLevel.writeHx (v : Half) : EncodingLevel.Statement (.writeHx v) := rfl
theorem EncodingLevel.writeSp (v : Half) : EncodingLevel.Statement (.writeSp v) := rfl
theorem EncodingLevel.writeNext (d : Byte) : EncodingLevel.Statement (.writeNext d) := rfl
theorem EncodingLevel.writeNextWs (d : Byte) : EncodingLevel.Statement (.writeNextWs d) := rfl
theorem EncodingLevel.readStatus : EncodingLevel.Statement (.readStatus) := rfl
theorem EncodingLevel.writeControl (d : Byte) : EncodingLevel.Statement (.writeControl d) := rfl
theorem EncodingLevel.readByte (a : Half) : EncodingLevel.Statement (.readByte a) := rfl
theorem EncodingLevel.readByteWs (a : Half) : EncodingLevel.Statement (.readByteWs a) := rfl
theorem EncodingLevel.readLast : EncodingLevel.Statement (.readLast) := rfl
theorem EncodingLevel.writeByte (a : Half) (d : Byte) : EncodingLevel.Statement (.writeByte a d) := rfl
theorem EncodingLevel.writeByteWs (a : Half) (d : Byte) : EncodingLevel.Statement (.writeByteWs a d) := rfl
theorem EncodingLevel.readBkpt : EncodingLevel.Statement (.readBkpt) := rfl
theorem EncodingLevel.writeBkpt (v : Half) : EncodingLevel.Statement (.writeBkpt v) := rfl
theorem EncodingLevel.setTarget : EncodingLevel.Statement (.setTarget) :=
  encodingLevel_of_host rfl rfl (by simp [Instr.hostParams, HostOp.minNp])
theorem EncodingLevel.setVdd (vdd : Byte) : EncodingLevel.Statement (.setVdd vdd) :=
  encodingLevel_of_host rfl rfl (by simp [Instr.hostParams, HostOp.minNp])
theorem EncodingLevel.getBdmStatus : EncodingLevel.Statement (.getBdmStatus) :=
  encodingLevel_of_host rfl rfl (by simp [Instr.hostParams, HostOp.minNp])
theorem EncodingLevel.getCapabilities : EncodingLevel.Statement (.getCapabilities) :=
  encodingLevel_of_host rfl rfl (by simp [Instr.hostParams, HostOp.minNp])
theorem EncodingLevel.setOptions (params : List Byte) : EncodingLevel.Statement (.setOptions params) :=
  encodingLevel_of_host rfl rfl (Nat.zero_le _)
theorem EncodingLevel.controlPins : EncodingLevel.Statement (.controlPins) :=
  encodingLevel_of_host rfl rfl (by simp [Instr.hostParams, HostOp.minNp])
theorem EncodingLevel.connect : EncodingLevel.Statement (.connect) :=
  encodingLevel_of_host rfl rfl (by simp [Instr.hostParams, HostOp.minNp])
theorem EncodingLevel.setSpeed (h : Half) : EncodingLevel.Statement (.setSpeed h) :=
  encodingLevel_of_host rfl rfl (by simp [Instr.hostParams, HostOp.minNp])
theorem EncodingLevel.getSpeed : EncodingLevel.Statement (.getSpeed) :=
  encodingLevel_of_host rfl rfl (by simp [Instr.hostParams, HostOp.minNp])
theorem EncodingLevel.readStatusReg : EncodingLevel.Statement (.readStatusReg) :=
  encodingLevel_of_host rfl rfl (by simp [Instr.hostParams, HostOp.minNp])
theorem EncodingLevel.writeControlReg (v : Word) : EncodingLevel.Statement (.writeControlReg v) :=
  encodingLevel_of_host rfl rfl (by simp [Instr.hostParams, HostOp.minNp])
theorem EncodingLevel.targetReset (m : Byte) : EncodingLevel.Statement (.targetReset m) :=
  encodingLevel_of_host rfl rfl (by simp [Instr.hostParams, HostOp.minNp])
theorem EncodingLevel.targetStep : EncodingLevel.Statement (.targetStep) :=
  encodingLevel_of_host rfl rfl (by simp [Instr.hostParams, HostOp.minNp])
theorem EncodingLevel.targetGo : EncodingLevel.Statement (.targetGo) :=
  encodingLevel_of_host rfl rfl (by simp [Instr.hostParams, HostOp.minNp])
theorem EncodingLevel.targetHalt : EncodingLevel.Statement (.targetHalt) :=
  encodingLevel_of_host rfl rfl (by simp [Instr.hostParams, HostOp.minNp])
theorem EncodingLevel.writeReg (id : Half) (v : Word) : EncodingLevel.Statement (.writeReg id v) :=
  encodingLevel_of_host rfl rfl (by simp [Instr.hostParams, HostOp.minNp])
theorem EncodingLevel.readReg (id : Half) : EncodingLevel.Statement (.readReg id) :=
  encodingLevel_of_host rfl rfl (by simp [Instr.hostParams, HostOp.minNp])
theorem EncodingLevel.writeDreg (id : Half) (v : Word) : EncodingLevel.Statement (.writeDreg id v) :=
  encodingLevel_of_host rfl rfl (by simp [Instr.hostParams, HostOp.minNp])
theorem EncodingLevel.readDreg (id : Half) : EncodingLevel.Statement (.readDreg id) :=
  encodingLevel_of_host rfl rfl (by simp [Instr.hostParams, HostOp.minNp])
theorem EncodingLevel.writeMem (mode : Byte) (count : Byte) (addr : Half) (data : List Byte) :
    EncodingLevel.Statement (.writeMem mode count addr data) :=
  encodingLevel_of_host rfl rfl (by simp [Instr.hostParams, HostOp.minNp])
theorem EncodingLevel.readMem (mode : Byte) (count : Byte) (addr : Half) :
    EncodingLevel.Statement (.readMem mode count addr) :=
  encodingLevel_of_host rfl rfl (by simp [Instr.hostParams, HostOp.minNp])

end Sys2Proof.Laws
end

