-- ==== Sys2Proof/Laws/Trace.lean ====
section
/-! SUPPORT. The request trace: what an observer knows after more events, and how `TraceOk` and `requestsOf` grow with it. -/

namespace Sys2Proof.Laws

open Sys2Proof.Machine

@[simp] theorem viewOf_nil : viewOf [] = TraceView.start := rfl

theorem viewOf_append (before more : List WeEvent) : viewOf (before ++ more) = more.foldl observe (viewOf before) := by
  simp [viewOf]

/-- An admitted event keeps the trace as R167 wants it. -/
theorem traceOk_snoc {trace : List WeEvent} {e : WeEvent} (h : TraceOk trace) (ha : admits (viewOf trace) e) :
    TraceOk (trace ++ [e]) := by
  intro before x after heq
  rcases List.eq_nil_or_concat after with rfl | ⟨after, z, rfl⟩
  · obtain ⟨rfl, hx⟩ := List.append_inj' heq rfl
    cases hx
    exact ha
  · rw [show before ++ x :: after.concat z = (before ++ x :: after) ++ [z] by simp] at heq
    obtain ⟨h1, _⟩ := List.append_inj' heq rfl
    exact h before x after h1

@[simp] theorem requestsOf_nil : requestsOf [] = [] := rfl

@[simp] theorem requestsOf_request (r : WeRequest) (es : List WeEvent) :
    requestsOf (.request r :: es) = r :: requestsOf es := rfl

@[simp] theorem requestsOf_answer (a : WeAnswer) (es : List WeEvent) : requestsOf (.answer a :: es) = requestsOf es := rfl

theorem requestsOf_append (xs ys : List WeEvent) : requestsOf (xs ++ ys) = requestsOf xs ++ requestsOf ys := by
  induction xs with
  | nil => rfl
  | cons x xs ih => cases x <;> simp [ih]

@[simp] theorem claimEvents_latch (op : Byte) (P nt nr : Nat) (s : State) :
    claimEvents (s.latch op P nt nr) = claimEvents s := rfl

@[simp] theorem claimEvents_setCont (c : Cont) (s : State) : claimEvents (s.setCont c) = claimEvents s := rfl

@[simp] theorem loadEvents_latch (op : Byte) (P nt nr : Nat) (s : State) :
    loadEvents (s.latch op P nt nr) = loadEvents s := rfl

end Sys2Proof.Laws
end

