-- ==== Sys2Proof/Tests/Slice0.lean ====
section
/-! SUPPORT. Tests. Expected results are taken from spec/95_test_vectors.md (the row is named in each comment) or worked out
by hand from the rule named. The last part shows, for every statement of the certificates that has hypotheses, a state and
operands that meet them. -/

namespace Sys2Proof.Tests

open Sys2Proof.Machine

/-! Helpers -/

/-- The "warm engine" of spec/95_test_vectors.md, with the WE's next answers. -/
def warm (answers : List WeAnswer) : State :=
  { State.reset with
    eng :=
      { State.reset.eng with
        claimed := true, progLoaded := true, clockKnown := true, fPio := 128000, syncTicks := 1000 }
    cable := { State.reset.cable with speedMode := .sync }
    we := { State.reset.we with program := some .txn, divider := 976.5625 }
    io := { State.reset.io with weAnswers := answers } }

/-- The state after a CONNECT (P1 step 1): claimed and clock known, the transaction program not loaded. -/
def connected (answers : List WeAnswer) : State :=
  { warm answers with
    eng := { (warm answers).eng with progLoaded := false }
    we := { (warm answers).we with program := some .sync, divider := divSync } }

/-- The state after reset, with the WE's next answers. -/
def cold (answers : List WeAnswer) : State :=
  { State.reset with io := { State.reset.io with weAnswers := answers } }

/-- What the outside sees of a step (R16): the request trace, the responses, the results at the engine interface. -/
def seen (o : Host.Outcome State Fault Refusal) :
    Option (List WeEvent × List (List Byte) × List (Reply EngineResult)) :=
  match o with
  | .next t => some (t.io.trace, t.io.responses, t.io.results)
  | _ => none

/-- The flags claimed, progLoaded and clockKnown after a step. -/
def flags (o : Host.Outcome State Fault Refusal) : Option (Bool × Bool × Bool) :=
  match o with
  | .next t => some (t.eng.claimed, t.eng.progLoaded, t.eng.clockKnown)
  | _ => none

/-- The status byte and the length of the last response after a step. -/
def status (o : Host.Outcome State Fault Refusal) : Option (Option Byte × Nat) :=
  match o with
  | .next t => some (t.disp.rspFrame.head?, t.disp.rspFrame.length)
  | _ => none

/-- One thing about the next state, if there is one. -/
def got {α : Type} (f : State → α) (o : Host.Outcome State Fault Refusal) : Option α :=
  match o with
  | .next t => some (f t)
  | _ => none

/-- One step on a frame. -/
def onFrame (s : State) (bytes : List Byte) : Host.Outcome State Fault Refusal := step (s.placeInput (.frame bytes))

/-- One step on a BDM word. -/
def onBdm (s : State) (bytes : List Byte) : Host.Outcome State Fault Refusal := step (s.placeInput (.bdm bytes))

/-- One answered WE_SHIFT. -/
def shift (tx : Word) (nt nr : BitVec 6) (w : Word) : List WeEvent :=
  [.request (.shift tx nt nr), .answer (.done w)]

/-! Well-formedness (spec/30_encoding.md R99): each check refuses an ill-formed term. -/

theorem test_wf_options_too_long : (Instr.setOptions (List.replicate 253 0)).wf = false := by decide +kernel
theorem test_wf_data_beyond_count : (Instr.writeMem 0 1 0 [0xAA, 0xBB]).wf = false := by decide
theorem test_wf_data_too_long : (Instr.writeMem 0 255 0 (List.replicate 249 0)).wf = false := by decide +kernel

/-! Decoding: one word written out from the encoding tables R92, R94, R99, R101 for every constructor. -/

theorem test_decode_opcode_only :
    decodeBdm [0xD5] = .ok (.ackEnable, []) ∧
      decodeBdm [0xD6] = .ok (.ackDisabled, []) ∧
      decodeBdm [0x90] = .ok (.background, []) ∧
      decodeBdm [0x08] = .ok (.go, []) ∧
      decodeBdm [0x10] = .ok (.trace1, []) ∧
      decodeBdm [0x18] = .ok (.taggo, []) := by decide

theorem test_decode_reads :
    decodeBdm [0x68] = .ok (.readA, []) ∧
      decodeBdm [0x69] = .ok (.readCcr, []) ∧
      decodeBdm [0x6B] = .ok (.readPc, []) ∧
      decodeBdm [0x6C] = .ok (.readHx, []) ∧
      decodeBdm [0x6F] = .ok (.readSp, []) ∧
      decodeBdm [0x70] = .ok (.readNext, []) ∧
      decodeBdm [0x71] = .ok (.readNextWs, []) ∧
      decodeBdm [0xE4] = .ok (.readStatus, []) ∧
      decodeBdm [0xE8] = .ok (.readLast, []) ∧
      decodeBdm [0xE2] = .ok (.readBkpt, []) := by decide

theorem test_decode_writes :
    decodeBdm [0x48, 0xA5] = .ok (.writeA 0xA5, []) ∧
      decodeBdm [0x49, 0x60] = .ok (.writeCcr 0x60, []) ∧
      decodeBdm [0x4B, 0x12, 0x34] = .ok (.writePc 0x1234, []) ∧
      decodeBdm [0x4C, 0x56, 0x78] = .ok (.writeHx 0x5678, []) ∧
      decodeBdm [0x4F, 0x10, 0xFF] = .ok (.writeSp 0x10FF, []) ∧
      decodeBdm [0x50, 0xFF] = .ok (.writeNext 0xFF, []) ∧
      decodeBdm [0x51, 0x01] = .ok (.writeNextWs 0x01, []) ∧
      decodeBdm [0xC4, 0xC0] = .ok (.writeControl 0xC0, []) ∧
      decodeBdm [0xC2, 0xF0, 0x00] = .ok (.writeBkpt 0xF000, []) := by decide

theorem test_decode_memory_bytes :
    decodeBdm [0xE0, 0xFF, 0xFE] = .ok (.readByte 0xFFFE, []) ∧
      decodeBdm [0xE1, 0x12, 0x34] = .ok (.readByteWs 0x1234, []) ∧
      decodeBdm [0xC0, 0x00, 0x10, 0xAA] = .ok (.writeByte 0x0010 0xAA, []) ∧
      decodeBdm [0xC1, 0x12, 0x34, 0x56] = .ok (.writeByteWs 0x1234 0x56, []) := by decide

theorem test_decode_configuration :
    decodeFrame [0x03, 0x01, 0x05] = .ok .setTarget ∧
      decodeFrame [0x03, 0x02, 0x01] = .ok (.setVdd 0x01) ∧
      decodeFrame [0x02, 0x04] = .ok .getBdmStatus ∧
      decodeFrame [0x02, 0x05] = .ok .getCapabilities ∧
      decodeFrame [0x07, 0x06, 0x11, 0x22, 0x33, 0x44, 0x55] = .ok (.setOptions [0x11, 0x22, 0x33, 0x44, 0x55]) ∧
      decodeFrame [0x04, 0x08, 0x12, 0x34] = .ok .controlPins := by decide

theorem test_decode_connection_and_speed :
    decodeFrame [0x02, 0x0F] = .ok .connect ∧
      decodeFrame [0x04, 0x10, 0xEA, 0x60] = .ok (.setSpeed 0xEA60) ∧
      decodeFrame [0x02, 0x11] = .ok .getSpeed := by decide

theorem test_decode_target_commands :
    decodeFrame [0x02, 0x14] = .ok .readStatusReg ∧
      decodeFrame [0x06, 0x15, 0x12, 0x34, 0x56, 0xC0] = .ok (.writeControlReg 0x123456C0) ∧
      decodeFrame [0x03, 0x16, 0x09] = .ok (.targetReset 0x09) ∧
      decodeFrame [0x02, 0x17] = .ok .targetStep ∧
      decodeFrame [0x02, 0x18] = .ok .targetGo ∧
      decodeFrame [0x02, 0x19] = .ok .targetHalt := by decide

theorem test_decode_register_commands :
    decodeFrame [0x08, 0x1A, 0x00, 0x0F, 0x00, 0x01, 0x10, 0xFF] = .ok (.writeReg 0x000F 0x000110FF) ∧
      decodeFrame [0x04, 0x1B, 0x01, 0x0B] = .ok (.readReg 0x010B) ∧
      decodeFrame [0x08, 0x1E, 0x12, 0x34, 0x00, 0x00, 0xF0, 0x00] = .ok (.writeDreg 0x1234 0x0000F000) ∧
      decodeFrame [0x04, 0x1F, 0xFF, 0xFF] = .ok (.readDreg 0xFFFF) := by decide

theorem test_decode_memory_commands :
    decodeFrame [0x09, 0x20, 0x00, 0x02, 0x00, 0x10, 0xAA, 0xBB, 0xCC] = .ok (.writeMem 0x00 2 0x0010 [0xAA, 0xBB]) ∧
      decodeFrame [0x06, 0x21, 0x01, 0xFF, 0x00, 0x10] = .ok (.readMem 0x01 0xFF 0x0010) := by decide

/-- R102, R95, R96, R231 to R233, R346: what is rejected, by name. -/
theorem test_decode_rejects :
    decodeFrame [] = .error .hostDutyBroken ∧ decodeFrame [0x03, 0x01] = .error .hostDutyBroken ∧
      decodeFrame [0x00] = .error .badSize ∧ decodeFrame [0x01] = .error .badSize ∧
      decodeFrame [0x02, 0xFF] = .error (.unknownOpcode 0xFF) ∧ decodeFrame [0x02, 0x03] = .error (.unknownOpcode 0x03) ∧
      decodeFrame [0x03, 0x1B, 0x00] = .error (.shortParams .readReg) ∧
      decodeBdm [0x6A] = .error (.unknownBdm 0x6A) ∧ decodeBdm [0xC0, 0x00, 0x10] = .error (.truncatedBdm .writeByte) := by
  decide

/-- S1 and the encoder: the bytes of "WRITE_PC with address 0x1234", and the frame of S7. -/
theorem test_encode :
    encode (.writePc 0x1234) = [0x4B, 0x12, 0x34] ∧
      encode (.writeMem 0x00 2 0x0010 [0xAA, 0xBB]) = [0x08, 0x20, 0x00, 0x02, 0x00, 0x10, 0xAA, 0xBB] := by decide

/-- Words as spec/opcode_table.json numbers their bits: the opcode byte in bits 7..0. -/
theorem test_table_words :
    decodeTableWord 8 0x6B = some .readPc ∧ decodeTableWord 8 0xC1 = some (.writeByteWs 0 0) ∧
      decodeTableWord 8 0x0F = some .connect ∧ decodeTableWord 8 0x1A = some (.writeReg 0 0) ∧
      decodeTableWord 8 0x20 = some (.writeMem 0 0 0 []) ∧ decodeTableWord 8 0x6A = none := by decide

/-- A table word placed for the next step is the instruction that step runs. -/
theorem test_with_fetch_word : seen (step (State.reset.withFetchWord 8 0x11)) = some ([], [[0x00, 0x00, 0x00]], []) := by
  decide +kernel

/-! BDM commands on the warm engine: vectors V1 to V32, one step each. -/

theorem test_v1_ack_enable : seen (onBdm (warm [.done 0x12345678]) [0xD5]) =
    some (shift 0x000000D5 8 0 0x12345678, [], [.ok .none]) := by decide +kernel
theorem test_v2_ack_disabled : seen (onBdm (warm [.done 0]) [0xD6]) =
    some (shift 0x000000D6 8 0 0, [], [.ok .none]) := by decide +kernel
theorem test_v3_background : seen (onBdm (warm [.done 0xDEADBEEF]) [0x90]) =
    some (shift 0x00000090 8 0 0xDEADBEEF, [], [.ok .none]) := by decide +kernel
theorem test_v4_go : seen (onBdm (warm [.done 1]) [0x08]) =
    some (shift 0x00000008 8 0 1, [], [.ok .none]) := by decide +kernel
theorem test_v5_trace1 : seen (onBdm (warm [.done 1]) [0x10]) =
    some (shift 0x00000010 8 0 1, [], [.ok .none]) := by decide +kernel
theorem test_v6_taggo : seen (onBdm (warm [.done 1]) [0x18]) =
    some (shift 0x00000018 8 0 1, [], [.ok .none]) := by decide +kernel
theorem test_v7_read_a : seen (onBdm (warm [.done 0xFFFFFF3C]) [0x68]) =
    some (shift 0x00000068 8 8 0xFFFFFF3C, [], [.ok (.data 0x3C)]) := by decide +kernel
theorem test_v8_read_ccr : seen (onBdm (warm [.done 0x00000160]) [0x69]) =
    some (shift 0x00000069 8 8 0x00000160, [], [.ok (.data 0x60)]) := by decide +kernel
theorem test_v9_read_pc : seen (onBdm (warm [.done 0x1234ABCD]) [0x6B]) =
    some (shift 0x0000006B 8 16 0x1234ABCD, [], [.ok (.value 0xABCD)]) := by decide +kernel
theorem test_v10_read_hx : seen (onBdm (warm [.done 0x00000080]) [0x6C]) =
    some (shift 0x0000006C 8 16 0x00000080, [], [.ok (.value 0x0080)]) := by decide +kernel
theorem test_v11_read_sp : seen (onBdm (warm [.done 0xFFFF00FF]) [0x6F]) =
    some (shift 0x0000006F 8 16 0xFFFF00FF, [], [.ok (.value 0x00FF)]) := by decide +kernel
theorem test_v12_read_next : seen (onBdm (warm [.done 0x000000EE]) [0x70]) =
    some (shift 0x00000070 8 8 0x000000EE, [], [.ok (.data 0xEE)]) := by decide +kernel
theorem test_v13_read_next_ws : seen (onBdm (warm [.done 0x0000C8EE]) [0x71]) =
    some (shift 0x00000071 8 16 0x0000C8EE, [], [.ok (.statusData 0xC8 0xEE)]) := by decide +kernel
theorem test_v14_write_a : seen (onBdm (warm [.done 7]) [0x48, 0xA5]) =
    some (shift 0x000048A5 16 0 7, [], [.ok .none]) := by decide +kernel
theorem test_v15_write_ccr : seen (onBdm (warm [.done 7]) [0x49, 0x00]) =
    some (shift 0x00004900 16 0 7, [], [.ok .none]) := by decide +kernel
theorem test_v16_write_pc : seen (onBdm (warm [.done 7]) [0x4B, 0xFF, 0xFF]) =
    some (shift 0x004BFFFF 24 0 7, [], [.ok .none]) := by decide +kernel
theorem test_v17_write_hx : seen (onBdm (warm [.done 7]) [0x4C, 0x00, 0x00]) =
    some (shift 0x004C0000 24 0 7, [], [.ok .none]) := by decide +kernel
theorem test_v18_write_sp : seen (onBdm (warm [.done 7]) [0x4F, 0x10, 0xFF]) =
    some (shift 0x004F10FF 24 0 7, [], [.ok .none]) := by decide +kernel
theorem test_v19_write_next : seen (onBdm (warm [.done 7]) [0x50, 0xFF]) =
    some (shift 0x000050FF 16 0 7, [], [.ok .none]) := by decide +kernel
theorem test_v20_write_next_ws : seen (onBdm (warm [.done 0xFFFFFFC0]) [0x51, 0x00]) =
    some (shift 0x00005100 16 8 0xFFFFFFC0, [], [.ok (.status 0xC0)]) := by decide +kernel
theorem test_v21_read_status : seen (onBdm (warm [.done 0]) [0xE4]) =
    some (shift 0x000000E4 8 8 0, [], [.ok (.status 0x00)]) := by decide +kernel
theorem test_v22_write_control : seen (onBdm (warm [.done 7]) [0xC4, 0xC4]) =
    some (shift 0x0000C4C4 16 0 7, [], [.ok .none]) := by decide +kernel
theorem test_v23_read_byte : seen (onBdm (warm [.done 0x000001FF]) [0xE0, 0xFF, 0xFF]) =
    some (shift 0x00E0FFFF 24 8 0x000001FF, [], [.ok (.data 0xFF)]) := by decide +kernel
theorem test_v24_read_byte_ws : seen (onBdm (warm [.done 0x0000C87F]) [0xE1, 0x00, 0x00]) =
    some (shift 0x00E10000 24 16 0x0000C87F, [], [.ok (.statusData 0xC8 0x7F)]) := by decide +kernel
theorem test_v25_read_last : seen (onBdm (warm [.done 0x000080FF]) [0xE8]) =
    some (shift 0x000000E8 8 16 0x000080FF, [], [.ok (.statusData 0x80 0xFF)]) := by decide +kernel
theorem test_v26_write_byte : seen (onBdm (warm [.done 7]) [0xC0, 0xFF, 0xFF, 0x00]) =
    some (shift 0xC0FFFF00 32 0 7, [], [.ok .none]) := by decide +kernel
theorem test_v27_write_byte_ws : seen (onBdm (warm [.done 0xABCDEF01]) [0xC1, 0x12, 0x34, 0x56]) =
    some (shift 0xC1123456 32 8 0xABCDEF01, [], [.ok (.status 0x01)]) := by decide +kernel
theorem test_v28_read_bkpt : seen (onBdm (warm [.done 0x00010000]) [0xE2]) =
    some (shift 0x000000E2 8 16 0x00010000, [], [.ok (.value 0x0000)]) := by decide +kernel
theorem test_v29_write_bkpt : seen (onBdm (warm [.done 7]) [0xC2, 0x00, 0x00]) =
    some (shift 0x00C20000 24 0 7, [], [.ok .none]) := by decide +kernel

/-- The flags after V4, V5, V6, V22: GO and TAGGO clear `E.clockKnown`, TRACE1 and WRITE_CONTROL keep it. -/
theorem test_clock_after :
    flags (onBdm (warm [.done 0]) [0x08]) = some (true, true, false) ∧
      flags (onBdm (warm [.done 0]) [0x10]) = some (true, true, true) ∧
      flags (onBdm (warm [.done 0]) [0x18]) = some (true, true, false) ∧
      flags (onBdm (warm [.done 0]) [0xC4, 0xC4]) = some (true, true, true) := by decide +kernel

/-- V14: an argument wider than its field is truncated by the wrapper. -/
theorem test_argument_truncated :
    (bdmCmd 0x48 [0x1A5] (warm [.done 0])).1.io.trace = shift 0x000048A5 16 0 0 := by decide +kernel

/-- V30: a byte that is no BDM command. -/
theorem test_unknown_bdm :
    seen (onBdm State.reset [0x00]) = some ([], [], [.err .illegalCommand]) := by decide +kernel

/-- V32, T4: a shift that times out. -/
theorem test_go_timeout :
    seen (onBdm (warm [.timeout]) [0x08]) =
        some ([.request (.shift 0x00000008 8 0), .answer .timeout], [], [.err .bkgdTimeout]) ∧
      flags (onBdm (warm [.timeout]) [0x08]) = some (true, false, false) := by decide +kernel

/-- V33: READ_PC from reset. -/
theorem test_read_pc_cold :
    seen (onBdm (cold [.done 1000, .done 0x0100]) [0x6B]) =
      some
        ([.request .claim, .request (.load .sync 62.5), .request .sync, .answer (.done 1000),
          .request (.load .txn 976.5625)] ++ shift 0x0000006B 8 16 0x0100, [], [.ok (.value 0x0100)]) := by
  decide +kernel

/-! Host commands: vectors H1 to H23, one step each. -/

theorem test_h1_set_target : seen (onFrame (warm []) [0x03, 0x01, 0x05]) =
    some ([], [[0x00]], []) := by decide +kernel
theorem test_h3_get_bdm_status : seen (onFrame { warm [] with io := { (warm []).io with powerSamples := [true] } } [0x02, 0x04]) =
    some ([], [[0x00, 0x00, 0x50]], []) := by decide +kernel
theorem test_h3b_status_after_reset : seen (onFrame { State.reset with io := { State.reset.io with powerSamples := [false] } } [0x02, 0x04]) =
    some ([], [[0x00, 0x00, 0x00]], []) := by decide +kernel
theorem test_h6_control_pins : seen (onFrame (warm []) [0x02, 0x08]) =
    some ([], [[0x00, 0x00, 0x00]], []) := by decide +kernel
theorem test_h9_get_speed : seen (onFrame (warm []) [0x02, 0x11]) =
    some ([], [[0x00, 0xEA, 0x60]], []) := by decide +kernel
theorem test_h7_connect : seen (onFrame (warm [.done 128]) [0x02, 0x0F]) =
    some ([.request (.load .sync 62.5), .request .sync, .answer (.done 128)], [[0x00]], []) := by decide +kernel
theorem test_h23_connect_fails : seen (onFrame (warm [.done 0]) [0x02, 0x0F]) =
    some ([.request (.load .sync 62.5), .request .sync, .answer (.done 0)], [[0x15]], []) := by decide +kernel
theorem test_h10_read_status_reg : seen (onFrame (warm [.done 0xC8]) [0x02, 0x14]) =
    some (shift 0x000000E4 8 8 0xC8, [[0x00, 0x00, 0x00, 0x00, 0xC8]], []) := by decide +kernel
theorem test_h11_write_control_reg : seen (onFrame (warm [.done 7]) [0x06, 0x15, 0xFF, 0xFF, 0xFF, 0xC0]) =
    some (shift 0x0000C4C0 16 0 7, [[0x00]], []) := by decide +kernel
theorem test_h13_target_step : seen (onFrame (warm [.done 7]) [0x02, 0x17]) =
    some (shift 0x00000010 8 0 7, [[0x00]], []) := by decide +kernel
theorem test_h14_target_go : seen (onFrame (warm [.done 7]) [0x02, 0x18]) =
    some (shift 0x00000008 8 0 7, [[0x00]], []) := by decide +kernel
theorem test_h15_target_halt : seen (onFrame (warm [.done 7]) [0x02, 0x19]) =
    some (shift 0x00000090 8 0 7, [[0x00]], []) := by decide +kernel
theorem test_h16_write_reg_sp : seen (onFrame (warm [.done 7]) [0x08, 0x1A, 0x00, 0x0F, 0x00, 0x01, 0x10, 0xFF]) =
    some (shift 0x004F10FF 24 0 7, [[0x00]], []) := by decide +kernel
theorem test_h16b_write_reg_ccr : seen (onFrame (warm [.done 7]) [0x08, 0x1A, 0x00, 0x09, 0x00, 0x00, 0x01, 0x60]) =
    some (shift 0x00004960 16 0 7, [[0x00]], []) := by decide +kernel
theorem test_h17_read_reg_hx : seen (onFrame (warm [.done 0x0080]) [0x04, 0x1B, 0x00, 0x0C]) =
    some (shift 0x0000006C 8 16 0x0080, [[0x00, 0x00, 0x00, 0x00, 0x80]], []) := by decide +kernel
theorem test_h17b_read_reg_ccr : seen (onFrame (warm [.done 0x160]) [0x04, 0x1B, 0x00, 0x09]) =
    some (shift 0x00000069 8 8 0x160, [[0x00, 0x00, 0x00, 0x00, 0x60]], []) := by decide +kernel
theorem test_h18_write_dreg : seen (onFrame (warm [.done 7]) [0x08, 0x1E, 0x12, 0x34, 0x00, 0x00, 0xF0, 0x00]) =
    some (shift 0x00C2F000 24 0 7, [[0x00]], []) := by decide +kernel
theorem test_h19_read_dreg : seen (onFrame (warm [.done 0xF000]) [0x04, 0x1F, 0xFF, 0xFF]) =
    some (shift 0x000000E2 8 16 0xF000, [[0x00, 0x00, 0x00, 0xF0, 0x00]], []) := by decide +kernel
theorem test_h20_write_mem_wraps : seen (onFrame (warm [.done 1, .done 2]) [0x08, 0x20, 0x00, 0x02, 0xFF, 0xFF, 0x11, 0x22]) =
    some (shift 0xC0FFFF11 32 0 1 ++ shift 0xC0000022 32 0 2, [[0x00]], []) := by decide +kernel
theorem test_h20b_write_mem_none : seen (onFrame State.reset [0x06, 0x20, 0x00, 0x00, 0x00, 0x10]) =
    some ([], [[0x00]], []) := by decide +kernel
theorem test_h21_read_mem : seen (onFrame (warm [.done 0x11, .done 0x22]) [0x06, 0x21, 0x00, 0x02, 0x00, 0x10]) =
    some (shift 0x00E00010 24 8 0x11 ++ shift 0x00E00011 24 8 0x22, [[0x00, 0x11, 0x22]], []) := by decide +kernel

/-- H7, H23, P4: what CONNECT writes. -/
theorem test_connect_writes :
    got (fun t => (t.eng.fPio, t.eng.syncTicks, t.eng.progLoaded, t.cable.speedMode))
        (onFrame (warm [.done 128]) [0x02, 0x0F]) = some (1000000, 128, false, .sync) ∧
      got (fun t => (t.eng.fPio, t.eng.syncTicks, t.eng.clockKnown, t.cable.speedMode))
        (onFrame (warm [.timeout]) [0x02, 0x0F]) = some (128000, 1000, false, .none) := by decide +kernel

/-- H2: SET_VDD writes its byte of the options image. -/
theorem test_h2_set_vdd :
    got (fun t => t.options) (onFrame (warm []) [0x03, 0x02, 0x7F]) =
      some ((warm []).options.set Config.vddOffset.val 0x7F) := rfl

/-- H4: the parts of the capabilities the spec fixes. -/
theorem test_h4_get_capabilities :
    got (fun t => (t.disp.rspFrame.length, t.rspByte 0, t.rspByte 3, t.rspByte 4)) (onFrame (warm []) [0x02, 0x05]) =
      some (8, some 0x00, some 0x00, some 0xFE) := by decide +kernel

/-- H5: with OPTIONS_SIZE = 4 the fifth byte is ignored, and three bytes are refused. -/
theorem test_h5_set_options :
    (setOptionsOf 4 [0x11, 0x22, 0x33, 0x44, 0x55] (warm [])).options = [0x11, 0x22, 0x33, 0x44] ∧
      (setOptionsOf 4 [0x11, 0x22, 0x33, 0x44, 0x55] (warm [])).disp.rspFrame = [0x00] ∧
      (setOptionsOf 4 [0x11, 0x22, 0x33] (warm [])).disp.rspFrame = [0x01] := by decide +kernel

/-- P-S1, P-S2, P-S4: SET_SPEED. -/
theorem test_h8_set_speed :
    ticksOfHost 0xEA60 = 1000 ∧ ticksOfHost 59 = 0 ∧ ticksOfHost 0xFFFF = 1092 ∧
      got (fun t => (t.cable.speedMode, t.eng.syncTicks, t.eng.clockKnown)) (onFrame (warm []) [0x04, 0x10, 0xEA, 0x60]) =
        some (.user, 1000, true) := by decide +kernel

/-- P-S10 to P-S12: GET_SPEED wraps modulo 2^16. -/
theorem test_get_speed_wraps :
    ticksToHost 1092 = 0xFFF0 ∧ ticksToHost 1093 = 0x002C ∧ ticksToHost 0xFFFF = 0xFFC4 := by decide

/-- H12, H12b, H12c: software resets with the sequences the vectors assume. -/
theorem test_h12_target_reset :
    (targetResetWith (fun _ => [⟨.writeByte, [0x1800, 0x01]⟩]) 0x08 (warm [.done 7])).io.trace = shift 0xC0180001 32 0 7 ∧
      (targetResetWith (fun _ => [⟨.writeByte, [0x1800, 0x01]⟩]) 0x08 (warm [.done 7])).io.responses = [[0x00]] ∧
      (targetResetWith (fun _ => []) 0x09 (warm [])).eng.clockKnown = false ∧
      (targetResetWith (fun _ => [⟨.writeByte, [0x1800, 0x01]⟩]) 0x09 (warm [.timeout])).io.responses = [[0x14]] := by
  decide +kernel

/-- H20c, H21d: memory commands that time out at byte 1. -/
theorem test_memory_timeouts :
    seen (onFrame (warm [.done 1, .timeout]) [0x08, 0x20, 0x00, 0x02, 0x00, 0x10, 0xAA, 0xBB]) =
        some (shift 0xC00010AA 32 0 1 ++ [.request (.shift 0xC00011BB 32 0), .answer .timeout], [[0x14]], []) ∧
      status (onFrame (warm [.done 0xAA, .timeout]) [0x06, 0x21, 0x00, 0x02, 0x00, 0x10]) = some (some 0x14, 3) := by
  decide +kernel

/-- R140, R259: READ_MEM right after CONNECT loads the transaction program before its first byte. -/
theorem test_read_mem_after_connect :
    seen (onFrame (connected [.done 0x11, .done 0x22]) [0x06, 0x21, 0x00, 0x02, 0x00, 0x10]) =
      some
        ([.request (.load .txn 976.5625)] ++ shift 0x00E00010 24 8 0x11 ++ shift 0x00E00011 24 8 0x22,
          [[0x00, 0x11, 0x22]], []) := by
  decide +kernel

/-- R140, R258: WRITE_MEM from reset, its implicit synchronize failing, sends nothing. -/
theorem test_write_mem_sync_fails :
    seen (onFrame (cold [.timeout]) [0x07, 0x20, 0x00, 0x01, 0x00, 0x10, 0xAA]) =
      some
        ([.request .claim, .request (.load .sync 62.5), .request .sync, .answer .timeout], [[0x15]], []) := by
  decide +kernel

/-- H21c: the largest READ_MEM is accepted. -/
theorem test_read_mem_largest : memChecks .read 0x00 253 0 = .ok () ∧ memChecks .read 0x00 254 0 = .err .illegalParams := by
  decide

/-- H22: READ_REG from reset with a failing synchronize. -/
theorem test_h22_read_reg_sync_fails :
    status (onFrame (cold [.timeout]) [0x04, 0x1B, 0x00, 0x0B]) = some (some 0x15, 5) ∧
      flags (onFrame (cold [.timeout]) [0x04, 0x1B, 0x00, 0x0B]) = some (true, false, false) := by decide +kernel

/-- P1 step 2: READ_REG right after CONNECT loads the transaction program first. -/
theorem test_p1_read_reg_after_connect :
    seen (onFrame (connected [.done 0x0000F0A5]) [0x04, 0x1B, 0x00, 0x0B]) =
      some ([.request (.load .txn 976.5625)] ++ shift 0x0000006B 8 16 0x0000F0A5, [[0x00, 0x00, 0x00, 0xF0, 0xA5]], []) := by
  decide +kernel

/-! Frame errors: F1 to F26, status and length of the response. -/

theorem test_frame_structure :
    status (onFrame State.reset [0x00]) = some (some 0x02, 1) ∧ status (onFrame State.reset [0x01]) = some (some 0x02, 1) ∧
      status (onFrame State.reset (0xFF :: 0x1B :: List.replicate 253 0)) = some (some 0x02, 1) ∧
      status (onFrame State.reset [0x02, 0xFF]) = some (some 0x02, 1) ∧
      status (onFrame State.reset [0x02, 0x03]) = some (some 0x02, 1) := by decide +kernel

theorem test_frame_short :
    status (onFrame State.reset [0x02, 0x02]) = some (some 0x01, 1) ∧
      status (onFrame State.reset [0x03, 0x1B, 0x00]) = some (some 0x01, 5) ∧
      status (onFrame State.reset [0x05, 0x21, 0x00, 0x02, 0x00]) = some (some 0x01, 1) := by decide +kernel

theorem test_frame_values :
    status (onFrame State.reset [0x04, 0x1B, 0x01, 0x0B]) = some (some 0x01, 5) ∧
      status (onFrame State.reset [0x08, 0x1A, 0x00, 0x0D, 0, 0, 0, 0]) = some (some 0x01, 1) ∧
      status (onFrame State.reset [0x06, 0x21, 0x01, 0xFF, 0x00, 0x10]) = some (some 0x20, 1) ∧
      status (onFrame State.reset [0x06, 0x21, 0x00, 0xFE, 0x00, 0x00]) = some (some 0x01, 1) ∧
      status (onFrame State.reset [0x07, 0x20, 0x80, 0x02, 0x00, 0x10, 0xAA]) = some (some 0x20, 1) ∧
      status (onFrame State.reset [0x07, 0x20, 0x00, 0x02, 0x00, 0x10, 0xAA]) = some (some 0x01, 1) := by decide +kernel

theorem test_reset_bytes :
    decodeReset 0x1D = .err .illegalParams ∧ decodeReset 0x07 = .err .illegalParams ∧
      decodeReset 0x00 = .err .illegalParams ∧ decodeReset 0x04 = .err .featureNotSupported ∧
      decodeReset 0x0C = .err .featureNotSupported ∧ decodeReset 0x0E = .err .illegalParams ∧
      decodeReset 0x08 = .ok .special ∧ decodeReset 0x09 = .ok .normal := by decide

/-- R346, U17: a frame shorter than its size byte has no move. -/
theorem test_frame_duty : onFrame State.reset [0x04, 0x1B] = .refused .hostDutyBroken := rfl

/-! Synchronization: the table of section 2.1. -/

theorem test_sync_table :
    tickFrequency 0 = none ∧ tickFrequency 1 = none ∧ tickFrequency 2 = some 64000000 ∧ tickFrequency 16 = some 8000000 ∧
      tickFrequency 1000 = some 128000 ∧ tickFrequency 0xFFFF = some (128000000 / 65535) ∧ tickFrequency 0x10000 = none ∧
      tickFrequency 0xFFFFFFFF = none := by decide +kernel

theorem test_divider_table :
    divSync = 62.5 ∧ clockDivider (syncFrequency 1) = 0.9765625 ∧ clockDivider (syncFrequency 16) = 15.625 ∧
      clockDivider (syncFrequency 1000) = 976.5625 ∧ clockDivider (syncFrequency 0xFFFF) = 63999.0234375 := by decide +kernel

/-! Engine traces, section 2.2, through the sequencer. -/

/-- T1's sequencer walk: seven transitions, one request-issuing state after another. -/
theorem test_sequencer_walk :
    got (fun t => (t.io.results, t.eng.seq, t.eng.fPio, t.io.trace))
        (stepMany 7 ((cold [.done 16, .done 0xABCD]).placeInput (.transaction 0x6B 0 8 16))) =
      some
        ([.ok (.received 0xABCD)], .idle, 8000000,
          [.request .claim, .request (.load .sync 62.5), .request .sync, .answer (.done 16),
           .request (.load .txn 15.625)] ++ shift 0x0000006B 8 16 0xABCD) := by decide +kernel

/-- T8, T9: bits above nr and the dummy word are discarded. -/
theorem test_received_value :
    (transact 0x6B 0 8 16 (warm [.done 0x1234ABCD])).2 = .ok 0xABCD ∧
      (transact 0x90 0 8 0 (warm [.done 0xDEADBEEF])).2 = .ok 0 := by decide +kernel

/-- T10: a call outside the preconditions. -/
theorem test_precondition : step (State.reset.placeInput (.transaction 0x6B 0 40 0)) = .fault .preconditionViolation := rfl

/-- T11: a bare synchronize on a warm engine, four transitions. -/
theorem test_sync_alone :
    got (fun t => (t.io.results, t.eng.progLoaded, t.eng.seq)) (stepMany 4 ((warm [.done 1000]).placeInput .synchronize)) =
      some ([.ok (.frequency 128000)], false, .idle) := by decide +kernel

/-! Codec, section 2.7. -/

theorem test_hex_digits :
    [0x30, 0x39, 0x41, 0x66, 0x47, 0x2F, 0x3A, 0x40, 0x60, 0xFF].map hexToNibble =
        [0, 9, 10, 15, 0xFF, 0xFF, 0xFF, 0xFF, 0xFF, 0xFF] ∧
      [0, 9, 15, 16, 0xFF].map nibbleToHex = [0x30, 0x39, 0x46, 0xFF, 0xFF] := by decide

theorem test_valid_opcodes :
    [0x09, 0x4A, 0x4D, 0x52, 0x91, 0xC3, 0xE3, 0xFF].all (fun b => !isValidBdmCommand b) = true ∧
      BdmOp.all.all (fun o => isValidBdmCommand o.code) = true := by decide

theorem test_pack :
    packMsb [] = (true, 0) ∧ packMsb (List.replicate 32 true) = (true, 0xFFFFFFFF) ∧
      packMsb (List.replicate 33 true) = (false, 0) ∧ packLsb [false, false, false, true] = (true, 8) ∧
      packMsb [false, false, false, true] = (true, 1) ∧ packLsb [true, false, true, true] = (true, 13) := by decide +kernel

theorem test_unpack :
    unpackLsb 0xB 4 = (true, [true, true, false, true]) ∧
      (unpackMsb 0x4B1234 24).2.take 8 = [false, true, false, false, true, false, true, true] ∧
      unpackMsb 0 33 = (false, []) := by decide +kernel

theorem test_hex_pairs :
    byteToHex 0x0A = [0x30, 0x41] ∧ hexPairToByte 0x46 0x66 = (true, 0xFF) ∧ hexPairToByte 0x67 0x30 = (false, 0) := by
  decide

/-- K11: "WRITE_A 0x10,<tab>" followed by " A5" (the comma is no separator). -/
theorem test_tokenize :
    tokenize [] = [] ∧ tokenize [0x20, 0x09, 0x0D, 0x0A] = [] ∧
      tokenize [0x57, 0x20, 0x31, 0x2C, 0x09, 0x20, 0x41] = [[0x57], [0x31, 0x2C], [0x41]] := by decide

/-- K12: "4294967295", "4294967296", "0XaB", "-1", "0x1g", "0x" and "". -/
theorem test_parse_number :
    parseNumber [0x34, 0x32, 0x39, 0x34, 0x39, 0x36, 0x37, 0x32, 0x39, 0x35] = (true, 0xFFFFFFFF) ∧
      parseNumber [0x34, 0x32, 0x39, 0x34, 0x39, 0x36, 0x37, 0x32, 0x39, 0x36] = (false, 0) ∧
      parseNumber [0x30, 0x58, 0x61, 0x42] = (true, 0xAB) ∧ parseNumber [0x2D, 0x31] = (false, 0) ∧
      parseNumber [0x30, 0x78, 0x31, 0x67] = (false, 0) ∧ parseNumber [0x30, 0x78] = (false, 0) ∧
      parseNumber [] = (false, 0) := by decide +kernel

/-! Witnesses: for every statement of the certificates with hypotheses, a state and operands that meet them all, at the ends
of their ranges. `warm_w` and `cold` serve all statements about a warm and a cold engine. -/

theorem wit_encoding :
    (Instr.setOptions (List.replicate 252 0)).wf = true ∧ (Instr.writeMem 0 248 0 (List.replicate 248 0)).wf = true ∧
      (Instr.readMem 0x00 0xFF 0xFFFF).wf = true := by decide +kernel

theorem wit_hex_digit : (0x0F : Byte).toNat ≤ 15 ∧ (0x00 : Byte).toNat ≤ 15 := by decide

theorem wit_pack : (List.replicate 32 true).length ≤ 32 ∧ ([] : List Bool).length ≤ 32 ∧
    32 < (List.replicate 33 true).length := by decide

theorem wit_hex_pair : hexToNibble 0x67 = 0xFF ∧ hexToNibble 0x2F = 0xFF ∧ hexToNibble 0x66 ≠ 0xFF ∧ hexToNibble 0x30 ≠ 0xFF := by
  decide

theorem wit_tokenize :
    [0x41] ∈ tokenize [0x20, 0x41, 0x0A] ∧ isSeparator 0x20 = true ∧ isSeparator 0x0D = true ∧
      ([0x41, 0x2C] : List Byte) ≠ [] ∧ ∀ c ∈ ([0x41, 0x2C] : List Byte), isSeparator c = false := by decide

/-- "4294967295", "4294967296" and "0"; the hex digits of 2^32 - 1 and of 2^32; and "0x", which is neither form. -/
theorem wit_parse_number :
    (∀ c ∈ ([0x34, 0x32, 0x39, 0x34, 0x39, 0x36, 0x37, 0x32, 0x39, 0x35] : List Byte), 0x30 ≤ c.toNat ∧ c.toNat ≤ 0x39) ∧
      ([0x34, 0x32, 0x39, 0x34, 0x39, 0x36, 0x37, 0x32, 0x39, 0x35] : List Byte).foldl
        (fun a c => a * 10 + (c.toNat - 0x30)) 0 = 2 ^ 32 - 1 ∧
      ([0x34, 0x32, 0x39, 0x34, 0x39, 0x36, 0x37, 0x32, 0x39, 0x36] : List Byte).foldl
        (fun a c => a * 10 + (c.toNat - 0x30)) 0 = 2 ^ 32 ∧
      (∀ c ∈ List.replicate 8 (0x66 : Byte), hexToNibble c ≠ 0xFF) ∧
      (List.replicate 8 (0x66 : Byte)).foldl (fun a c => a * 16 + (hexToNibble c).toNat) 0 = 2 ^ 32 - 1 ∧
      ((0x31 : Byte) :: List.replicate 8 0x30).foldl (fun a c => a * 16 + (hexToNibble c).toNat) 0 = 2 ^ 32 ∧
      ¬([0x30, 0x78] ≠ [] ∧ ∀ c ∈ ([0x30, 0x78] : List Byte), 0x30 ≤ c.toNat ∧ c.toNat ≤ 0x39) := by decide +kernel

theorem wit_parse_neither :
    ¬∃ (ds : List Byte) (x : Byte),
        [0x30, 0x78] = 0x30 :: x :: ds ∧ ds ≠ [] ∧ (x = 0x78 ∨ x = 0x58) ∧ ∀ c ∈ ds, hexToNibble c ≠ 0xFF := by
  rintro ⟨ds, x, h, hne, _⟩
  simp only [List.cons.injEq, true_and] at h
  exact hne h.2.symm

theorem wit_claim : State.reset.eng.claimed = false ∧ (warm []).eng.claimed = true := by decide

/-- Each clause of the synchronize statements, at both ends of the accepted tick counts (R135). -/
theorem wit_sync :
    syncOutcome (cold [.done 2]).nextAnswer = some (2, 64000000) ∧
      syncOutcome (cold [.done 0xFFFF]).nextAnswer = some (0xFFFF, 128000000 / 65535) ∧
      syncOutcome (cold [.done 0]).nextAnswer = none ∧ syncOutcome (cold [.done 1]).nextAnswer = none ∧
      syncOutcome (cold [.done 0x10000]).nextAnswer = none ∧ syncOutcome (cold [.timeout]).nextAnswer = none := by
  decide +kernel

/-- The preconditions of R142 at both ends, and just outside each. -/
theorem wit_preconditions :
    (8 ≤ 8 ∧ 8 ≤ 32 ∧ 0 ≤ 32 ∧ 0 < 2 ^ (8 - 8)) ∧ (8 ≤ 32 ∧ 32 ≤ 32 ∧ 32 ≤ 32 ∧ 2 ^ 24 - 1 < 2 ^ (32 - 8)) ∧
      ¬1 < 2 ^ (8 - 8) ∧ ¬33 ≤ 32 ∧ ¬8 ≤ 7 := by decide

theorem warm_warm (answers : List WeAnswer) : Warm (warm answers) := ⟨rfl, rfl, rfl⟩

/-- Every statement that begins with a warm engine and an answered shift, or a shift that times out. -/
theorem wit_warm (w : Word) :
    Warm (warm [.done w]) ∧ (warm [.done w]).nextAnswer = .done w ∧ (warm [.done w]).eng.clockKnown = true ∧
      (warm [.timeout]).nextAnswer = .timeout := ⟨warm_warm _, rfl, rfl, rfl⟩

/-- The statements that begin with a known clock only: the program not loaded, the shift answered or timing out. -/
theorem wit_connected (w : Word) :
    (connected [.done w]).eng.clockKnown = true ∧ (connected [.done w]).eng.progLoaded = false ∧
      (connected [.done w]).nextAnswer = .done w ∧ (connected [.timeout]).nextAnswer = .timeout := ⟨rfl, rfl, rfl, rfl⟩

/-- Every statement that begins with an unknown clock: a synchronize answered, then a shift answered or timing out
(TransactionTimeout, BdmCommandCompletes, BdmCommandFails); a synchronize that fails is in `wit_sync`. -/
theorem wit_cold :
    (cold [.done 0xFFFF, .timeout]).nextAnswer = .done 0xFFFF ∧ tickFrequency 0xFFFF = some (128000000 / 65535) ∧
      (cold [.done 0xFFFF, .timeout]).popAnswer.nextAnswer = .timeout ∧ (cold [.timeout]).eng.clockKnown = false ∧
      (cold [.done 2, .done 0xFFFFFFFF]).eng.clockKnown = false ∧ (cold [.done 2, .done 0xFFFFFFFF]).nextAnswer = .done 2 ∧
      tickFrequency 2 = some 64000000 ∧ (cold [.done 2, .done 0xFFFFFFFF]).popAnswer.nextAnswer = .done 0xFFFFFFFF := by
  decide +kernel

/-- ShiftCarriesEncoding: both sides of its last hypothesis; OneAnswerPerRequest, PreconditionsOnlyFault and the other
statements about any instruction: exec answers a next state. -/
theorem wit_instruction :
    Instr.bdmOp (.writeByteWs 0xFFFF 0xFF) = some .writeByteWs ∧ Instr.hostOp (.readMem 0 253 0xFFFF) = some .readMem ∧
      (∃ t, exec (.writeByteWs 0xFFFF 0xFF) (warm [.done 0]) = .next t) ∧
      (∃ t, exec (.writeByteWs 0xFFFF 0xFF) (cold [.done 2, .done 0]) = .next t) ∧
      (∃ t, exec (.readMem 0 253 0xFFFF) State.reset = .next t) :=
  ⟨rfl, rfl, ⟨_, rfl⟩, ⟨_, rfl⟩, ⟨_, rfl⟩⟩

theorem wit_unknown_bdm :
    isValidBdmCommand 0x6A = false ∧ isValidBdmCommand 0x00 = false ∧
      (State.reset.placeInput (.bdm [0x6A])).eng.seq = .idle ∧
      (State.reset.placeInput (.bdm [0x6A])).io.inbox = .bdm (0x6A :: []) :: [] := by decide +kernel

theorem wit_options : (List.replicate optionsSize (0 : Byte)).length = optionsSize ∧ ([] : List Byte).length < optionsSize :=
  ⟨List.length_replicate, Nat.succ_pos _⟩

/-- TargetResetCompletes, CheckedCommandsAnswerOk: a WE that obliges, whatever the sequence is. -/
theorem wit_obliging (n : Nat) : Obliging n (cold (List.replicate n (.done 16))) :=
  ⟨by simp [cold], fun a ha => ⟨16, 8000000, (List.mem_replicate.1 ha).2, by decide +kernel⟩⟩

/-- A reset sequence of two commands; the first has an argument wider than its field (R180). -/
def resetCalls : List BdmCall := [⟨.writeByte, [0x1800, 0x101]⟩, ⟨.background, []⟩]

/-- SoftResetSendsSequence: a warm engine that answers both commands, or times out at the first or at the second, and the
words they shift. -/
theorem wit_soft_reset :
    (∀ c ∈ resetCalls, c.op ≠ .go ∧ c.op ≠ .taggo) ∧ ([1, 2] : List Word).length = resetCalls.length ∧
      (warm [.done 1, .done 2, .timeout]).io.weAnswers = ([1, 2] : List Word).map .done ++ [.timeout] ∧
      (warm [.timeout]).io.weAnswers = ([] : List Word).map .done ++ .timeout :: [] ∧
      (warm [.done 1, .timeout]).io.weAnswers = ([1] : List Word).map .done ++ .timeout :: [] ∧
      resetCalls.map callInstr = [.writeByte 0x1800 0x01, .background] ∧
      resetCalls.map (fun c => shiftWord (callInstr c)) = [0xC0180001, 0x00000090] := by decide +kernel

/-- SoftResetSendsSequence: a call that answers and one that fails. -/
theorem wit_soft_reset_call :
    (∃ t, bdmCmd BdmOp.background.code [] (warm [.done 1]) = (t, .ok .none)) ∧
      (∃ t, bdmCmd BdmOp.background.code [] (warm [.timeout]) = (t, .err .bkgdTimeout)) ∧
      ∃ t, bdmCmd BdmOp.background.code [] (cold [.timeout]) = (t, .err .syncTimeout) :=
  ⟨⟨_, rfl⟩, ⟨_, rfl⟩, ⟨_, rfl⟩⟩

/-- TargetResetCompletes: its first clause, whatever the sequence is. -/
theorem wit_target_reset (mode : ResetMode) :
    ∃ t r, softReset (Config.softResetSequence mode) (warm []) = (t, r) := ⟨_, _, rfl⟩

theorem wit_reset_modes :
    decodeReset 0x08 = .ok .special ∧ decodeReset 0x09 = .ok .normal ∧ checkOf (.targetReset 0x09) = .ok () ∧
      checkOf .connect = .ok () := by decide

/-- The memory statements: no byte, two bytes, the largest READ_MEM and just past it, and a timeout at the first and at the
last byte. -/
theorem wit_memory :
    ([] : List Byte).length = (0x00 : Byte).toNat ∧
      ([0xAA, 0xBB].length = (0x02 : Byte).toNat ∧ ([1, 2] : List Word).length = (0x02 : Byte).toNat ∧
        ([1, 2] : List Word) ≠ []) ∧
      ([] : List Word).length < (0x02 : Byte).toNat ∧ ([1] : List Word).length < (0x02 : Byte).toNat ∧
      (List.replicate 253 (0x11 : Word)).length = (253 : Byte).toNat ∧ (253 : Byte).toNat ≤ 253 ∧
      ¬(254 : Byte).toNat ≤ 253 ∧ (0x02 : Byte) ≠ 0 ∧ ([0xAA, 0xBB] : List Byte) ≠ [] := by decide +kernel

/-- The memory statements: a warm engine, one right after CONNECT, and a cold one each reach a first WE_SHIFT, whatever the
answers from it on; and a cold engine whose synchronize fails. -/
theorem wit_memory_reach (answers : List WeAnswer) :
    ReachesShift (warm answers) [] 128000 1000 answers ∧
      ReachesShift (connected answers) [.request (.load .txn (clockDivider 128000))] 128000 1000 answers ∧
      ReachesShift (cold (.done 16 :: answers))
        ([.request .claim, .request (.load .sync divSync), .request .sync, .answer (.done 16)] ++
          [.request (.load .txn (clockDivider 8000000))]) 8000000 16 answers ∧
      (cold [.timeout]).eng.clockKnown = false ∧ syncOutcome (cold [.timeout]).nextAnswer = none :=
  ⟨.inl ⟨rfl, rfl, rfl, rfl, rfl⟩, .inl ⟨rfl, rfl, rfl, rfl, rfl⟩,
   .inr ⟨rfl, 16, rfl, by decide +kernel, by decide, rfl⟩, rfl, rfl⟩

/-- StepRunsDecodedInstruction: a frame and a BDM word at the head of the inbox. -/
theorem wit_step :
    (State.reset.placeInput (.frame [0x02, 0x18])).eng.seq = .idle ∧
      (State.reset.placeInput (.frame [0x02, 0x18])).io.inbox = .frame [0x02, 0x18] :: [] ∧
      decodeInput (.frame [0x02, 0x18]) = some .targetGo ∧ decodeInput (.bdm [0x18]) = some .taggo := by decide +kernel

/-- MalformedRequestsAnswered: each clause, at the sizes where the clauses meet. -/
theorem wit_malformed :
    ([0x00].length + 1 ≠ max (0x03 : Byte).toNat 1) ∧ ([] : List Byte).length + 1 = max (0x00 : Byte).toNat 1 ∧
      ([] : List Byte).length + 1 = max (0x01 : Byte).toNat 1 ∧
      (List.replicate 254 (0x00 : Byte)).length + 1 = max (0xFF : Byte).toNat 1 ∧
      (List.replicate 253 (0x00 : Byte)).length + 1 = max (0xFE : Byte).toNat 1 ∧
      [0xFF].length + 1 = max (0x02 : Byte).toNat 1 ∧ hostOpOf 0xFF = none ∧ hostOpOf 0x1B = some .readReg ∧
      [0x00].length < HostOp.minNp .readReg ∧ ¬[0x00, 0x0B].length < HostOp.minNp .readReg ∧
      BdmOp.code .writeByte = 0xC0 ∧ [0x00, 0x10].length < BdmOp.paramBytes .writeByte := by decide +kernel

/-- RefusedCommandsOnlyAnswer: every command that has a check. -/
theorem wit_refused :
    checkOf (.writeReg 0x000A 0) = .err .illegalParams ∧ checkOf (.readReg 0x010B) = .err .illegalParams ∧
      checkOf (.targetReset 0x0D) = .err .featureNotSupported ∧
      checkOf (.writeMem 0x00 2 0x0010 [0xAA]) = .err .illegalParams ∧
      checkOf (.readMem 0x00 254 0) = .err .illegalParams ∧ checkOf (.readMem 0x01 0 0) = .err .featureNotSupported ∧
      ((0x000A : Half) ≠ 0x000B ∧ (0x000A : Half) ≠ 0x000F ∧ (0x000A : Half) ≠ 0x000C ∧ (0x000A : Half) ≠ 0x0008 ∧
        (0x000A : Half) ≠ 0x0009) := by decide

theorem wit_refused_options : checkOf (.setOptions []) = .err .illegalParams := by
  simp [checkOf, optionsSize]

/-- ConfigurationFrame: a claimed engine, a CONNECT and a SET_SPEED that change the speed mode. -/
theorem wit_configuration :
    (warm [.timeout]).eng.claimed = true ∧
      got (fun t => t.cable.speedMode ≠ (warm []).cable.speedMode) (exec .connect (warm [.timeout])) = some True ∧
      (∃ t, exec (.setSpeed 0) (warm []) = .next t ∧ t.cable.speedMode ≠ (warm []).cable.speedMode) :=
  ⟨rfl, congrArg some (propext ⟨fun _ => trivial, fun _ => by decide⟩), ⟨_, rfl, by decide⟩⟩

/-- ConfigurationFrame: an image whose first byte is not the one written. -/
theorem wit_options_change : ∃ (s t : State) (b : Byte), exec (.setVdd b) s = .next t ∧ t.options ≠ s.options :=
  ⟨{ State.reset with options := List.replicate optionsSize 0 }, _, 1, rfl, by
    intro h
    have h2 := congrArg (fun l => l[Config.vddOffset.val]?) h
    have hl : Config.vddOffset.val < (List.replicate optionsSize (0 : Byte)).length := by
      rw [List.length_replicate]
      exact Config.vddOffset.isLt
    change ((List.replicate optionsSize (0 : Byte)).set Config.vddOffset.val 1)[Config.vddOffset.val]? = _ at h2
    simp only [List.getElem?_set_self hl] at h2
    rw [List.getElem?_replicate_of_lt (by simpa using hl)] at h2
    exact absurd h2 (by decide)⟩

/-- ClockKnownOnlyByMeasurement: an engine whose clock becomes known, and one whose frequency changes. -/
theorem wit_clock :
    (cold [.done 16]).eng.clockKnown = false ∧
      got (fun t => t.eng.clockKnown) (exec .connect (cold [.done 16])) = some true ∧
      got (fun t => decide (t.eng.fPio = (warm []).eng.fPio)) (exec .connect (warm [.done 16])) = some false := by
  decide +kernel

/-- The warm engine in the middle of a transaction: the WE has a shift to answer. -/
def midShift : State :=
  { warm [.done 0] with
    eng := { (warm []).eng with seq := .shiftWait }
    we := { (warm []).we with outstanding := some (.shift 0x6B 8 16) } }

/-- EngineInvariantsKept: an idle state with a request, and a state inside a transaction, both of which step on. -/
theorem wit_engine_inv :
    EngineInv ((warm []).placeInput (.frame [0x02, 0x11])) ∧ EngineInv midShift ∧
      (∃ t, step ((warm []).placeInput (.frame [0x02, 0x11])) = .next t) ∧ ∃ t, step midShift = .next t :=
  ⟨⟨fun _ => rfl, fun _ => by decide +kernel, fun _ => by decide +kernel, .inr ⟨1000, by decide +kernel⟩, rfl⟩,
   ⟨fun _ => rfl, fun _ => by decide +kernel, fun _ => by decide +kernel, .inr ⟨1000, by decide +kernel⟩,
    ⟨⟨_, _, _, rfl⟩, rfl, rfl, rfl⟩⟩, ⟨_, rfl⟩, ⟨_, rfl⟩⟩

/-- A state that has claimed the WE and nothing more, its sequencer about to load the sync program. -/
def claimedOnly : State :=
  { State.reset with
    eng := { State.reset.eng with claimed := true, seq := .syncLoad }
    io := { State.reset.io with trace := [.request .claim] } }

/-- TraceGuaranteesKept: a state with a trace, which steps on. -/
theorem wit_trace_inv : TraceInv claimedOnly ∧ ∃ t, step claimedOnly = .next t := by
  refine ⟨{ ok := ?_, claimed := rfl, unclaimed := ?_, program := rfl, divider := ?_, progLoaded := ?_, clockKnown := ?_,
            fPio := rfl, waiting := rfl, pending := ?_, synced := ?_, position := ⟨rfl, rfl⟩ }, ⟨_, rfl⟩⟩
  · intro before e after h
    rcases before with _ | ⟨b, _ | ⟨c, bs⟩⟩
    · cases h
      rfl
    · cases h
    · cases h
  · intro h
    cases h
  · intro p d h
    cases h
  · intro h
    cases h
  · intro h
    cases h
  · intro h
    cases h
  · intro h
    cases h

/-- BuffersKeepSizes: a state with a frame in its inbox, which steps on. -/
theorem wit_memory_wf :
    Memory.wf (State.reset.placeInput (.frame [0x02, 0x11])) ∧
      ∃ t, step (State.reset.placeInput (.frame [0x02, 0x11])) = .next t :=
  ⟨⟨by decide, by decide, by simp [State.reset, State.placeInput, optionsResetImage]⟩, ⟨_, rfl⟩⟩

/-- SequencerTransitions, SequencerRefinesProcedures: a request at the head of the inbox, and a state at each position. -/
theorem wit_sequencer :
    (State.reset.placeInput .synchronize).eng.seq = .idle ∧
      (State.reset.placeInput .synchronize).io.inbox = .synchronize :: [] ∧
      (State.reset.placeInput (.transaction 0x6B 0 8 16)).io.inbox = .transaction 0x6B 0 8 16 :: [] ∧
      (∀ q, (State.reset.setSeq q).eng.seq = q) ∧ (warm []).eng.progLoaded = true ∧
      State.reset.eng.progLoaded = false ∧ (State.reset.setCont .txn).eng.cont = .txn :=
  ⟨rfl, rfl, rfl, fun _ => rfl, rfl, rfl, rfl⟩

end Sys2Proof.Tests
end

section
/-! PROOFS. The state after reset (spec/10_state.md R39, spec/70_reset_and_hazards.md R350, R351): one lemma per field the
spec gives a reset value, so that no later proof unfolds `State.reset`. -/

namespace Sys2Proof.Proofs

open Sys2Proof.Machine

@[simp] theorem reset_claimed : State.reset.eng.claimed = false := rfl
@[simp] theorem reset_progLoaded : State.reset.eng.progLoaded = false := rfl
@[simp] theorem reset_clockKnown : State.reset.eng.clockKnown = false := rfl
@[simp] theorem reset_fPio : State.reset.eng.fPio = 0 := rfl
@[simp] theorem reset_syncTicks : State.reset.eng.syncTicks = 0 := rfl
@[simp] theorem reset_seq : State.reset.eng.seq = .idle := rfl
@[simp] theorem reset_cable : State.reset.cable =
    { targetType := .hcs08, ackMode := false, resetDetected := false, speedMode := .none } := rfl
@[simp] theorem reset_options : State.reset.options = optionsResetImage := rfl
@[simp] theorem reset_program : State.reset.we.program = none := rfl
@[simp] theorem reset_rxChannel : State.reset.we.rxChannel = none := rfl
@[simp] theorem reset_trace : State.reset.io.trace = [] := rfl
@[simp] theorem reset_responses : State.reset.io.responses = [] := rfl

/-- Settles O54: the engine's registers force a claim, a synchronize and a load before the first shift; the cable and the
options hold their reset values; nothing has been asked of the WE and nothing emitted. -/
theorem resetValues : Obligations.ResetValues :=
  ⟨reset_claimed, reset_progLoaded, reset_clockKnown, reset_fPio, reset_syncTicks, reset_seq, reset_cable, reset_options,
    reset_program, reset_rxChannel, reset_trace, reset_responses⟩

end Sys2Proof.Proofs
end

section
/-! PROOFS. A synchronize asked for alone (spec/40_engine_core.md R131, R133, R135, R137, R138): which answers it refuses,
and its whole next state, in the forms `afterMeasure` and `afterSyncFailure` that an implicit synchronize has as well. -/

namespace Sys2Proof.Proofs

open Sys2Proof.Machine Sys2Proof.Laws

/-! Which answers are refused -/

theorem dividerLegal_iff (d : Rat) : dividerLegal d = true ↔ divMin ≤ d ∧ d ≤ divMax := by
  simp [dividerLegal]

/-- The refused tick counts (R135 (b), (c), (d)). -/
theorem tickFrequency_eq_none_iff (w : Word) :
    tickFrequency w = none ↔
      w = 0 ∨ 0xFFFF < w.toNat ∨
        ¬(divMin ≤ clockDivider (syncFrequency w.toNat) ∧ clockDivider (syncFrequency w.toNat) ≤ divMax) := by
  rw [← dividerLegal_iff]
  unfold tickFrequency
  split
  · next hw => simpa using hw.imp_right Or.inl
  · next hw =>
    obtain ⟨hzero, hbig⟩ := not_or.mp hw
    rw [or_iff_right hzero, or_iff_right hbig]
    simp

/-- The refused answers (R135): a Timeout, and Done of a refused tick count. -/
theorem syncOutcome_eq_none_iff (a : WeAnswer) :
    syncOutcome a = none ↔ a = .timeout ∨ ∃ w : Word, a = .done w ∧ tickFrequency w = none := by
  cases a with
  | timeout => simp
  | done w => simp [syncOutcome_done]

/-- An accepted answer carries its tick count, and the frequency kept is that count's (R136). -/
theorem syncOutcome_some_frequency {a : WeAnswer} {w : Word} {f : Rat} (h : syncOutcome a = some (w, f)) :
    a = .done w ∧ f = syncFrequency w.toNat := by
  obtain ⟨hdone, hticks⟩ := syncOutcome_some h
  obtain ⟨_, _, hf, _⟩ := tickFrequency_some hticks
  exact ⟨hdone, hf⟩

/-! The whole next state: `E.cont <- RET` changes a latch only, and the latches are released at the end (R26). -/

@[simp] theorem nextAnswer_setCont (s : State) (c : Cont) : (s.setCont c).nextAnswer = s.nextAnswer := rfl

@[simp] theorem popAnswer_setCont (s : State) (c : Cont) : (s.setCont c).popAnswer = s.popAnswer.setCont c := by
  cases h : s.io.weAnswers <;> simp [State.popAnswer, State.setCont, h]

@[simp] theorem claimEvents_setCont (s : State) (c : Cont) : claimEvents (s.setCont c) = claimEvents s := rfl

/-- A synchronize whose answer is accepted (R138). -/
theorem synchronize_ok {s : State} {w : Word} {f : Rat} (h : syncOutcome s.nextAnswer = some (w, f)) :
    synchronize s = ((afterMeasure w f s).releaseLatches, .ok f) := by
  obtain ⟨hdone, -⟩ := syncOutcome_some h
  rw [synchronize, measureClock_ok (s := s.setCont .ret) h, nextAnswer_setCont, popAnswer_setCont, hdone]
  refine Prod.ext (releaseLatches_congr ?_ ?_ ?_ ?_ ?_ ?_) rfl <;>
    simp [restingEq, afterMeasure, syncEvents]

/-- A synchronize whose answer is refused (R137). -/
theorem synchronize_err {s : State} (h : syncOutcome s.nextAnswer = none) :
    synchronize s = (afterSyncFailure s, .err .syncTimeout) := by
  rw [synchronize, measureClock_err (s := s.setCont .ret) h, nextAnswer_setCont, popAnswer_setCont]
  refine Prod.ext (releaseLatches_congr ?_ ?_ ?_ ?_ ?_ ?_) rfl <;> simp [restingEq, syncEvents]

/-- A synchronize fails exactly on a refused answer. -/
theorem synchronize_reply_eq_err_iff (s : State) :
    (synchronize s).2 = .err .syncTimeout ↔ syncOutcome s.nextAnswer = none := by
  cases h : syncOutcome s.nextAnswer with
  | none => simp [synchronize_err h]
  | some p => simp [synchronize_ok (w := p.1) (f := p.2) h]

/-- Settles O13: the refused answers are the ones `syncOutcome` has no value for, spelt out by R135. -/
theorem syncFailsExactly : Obligations.SyncFailsExactly := by
  intro s
  constructor
  · simp only [synchronize_reply_eq_err_iff, syncOutcome_eq_none_iff, tickFrequency_eq_none_iff]
  · cases h : syncOutcome s.nextAnswer with
    | none => exact .inl ((synchronize_reply_eq_err_iff s).mpr h)
    | some p =>
      obtain ⟨w, f⟩ := p
      obtain ⟨hdone, rfl⟩ := syncOutcome_some_frequency h
      exact .inr ⟨w, hdone, by rw [synchronize_ok h]⟩

/-- Settles O14: the two next states of a synchronize, their requests written out. -/
theorem synchronizeEffect : Obligations.SynchronizeEffect := by
  intro s
  constructor
  · intro w f h
    obtain ⟨-, rfl⟩ := syncOutcome_some_frequency h
    refine ⟨rfl, ?_⟩
    rw [synchronize_ok h]
    simp only [afterMeasure, syncEvents, claimEvents, List.append_assoc]
  · intro h
    rw [synchronize_err h]
    simp only [afterSyncFailure, syncEvents, claimEvents, List.append_assoc]

end Sys2Proof.Proofs
end

section
/-! PROOFS. A byte that is no BDM command given to the wrapper `bdmCmd` (spec/41_bdm_commands.md R182): the case beside
`bdmCmd_code`, which says what the wrapper does with the opcode of a command. -/

namespace Sys2Proof.Proofs

open Sys2Proof.Machine

/-- The wrapper looks at the byte before anything else (R180), so a refused byte never reaches the engine. -/
@[simp] theorem bdmCmd_of_not_valid {b : Byte} (hb : isValidBdmCommand b = false) (args : List Nat) (s : State) :
    bdmCmd b args s = (s, .err .illegalCommand) :=
  if_neg (Bool.eq_false_iff.mp hb)

/-- Settles O27: no state and no arguments enter the refusal of an unknown opcode (R182). -/
theorem unknownBdmOpcodeFails : Obligations.UnknownBdmOpcodeFails :=
  fun _ args s hb => bdmCmd_of_not_valid hb args s

end Sys2Proof.Proofs
end

section
/-! PROOFS. Connection and speed (spec/42_dispatcher.md R242 to R244). CONNECT is one synchronize with a speed mode and a
response after it, so each of its outcomes is `synchronize_ok` or `synchronize_err` carried through `connectWith`. -/

namespace Sys2Proof.Proofs

open Sys2Proof.Machine Sys2Proof.Laws

@[simp] theorem exec_connect (s : State) : exec .connect s = .next (connectWith (synchronize s)) := rfl

@[simp] theorem exec_setSpeed (h : Half) (s : State) :
    exec (.setSpeed h) s = .next (((s.setSyncLength (ticksOfHost h)).setSpeedMode .user).respond .ok []) := rfl

@[simp] theorem exec_getSpeed (s : State) :
    exec .getSpeed s = .next (s.respond .ok (halfBytes (ticksToHost s.eng.syncTicks))) := rfl

/-! The host's tick basis -/

/-- No wrap on the way in: the quotient is no larger than the host's value (R243). -/
theorem ticksOfHost_toNat (h : Half) : (ticksOfHost h).toNat = h.toNat / 60 := by
  have hle : h.toNat / 60 < 2 ^ 16 := (Nat.div_le_self _ _).trans_lt h.isLt
  rw [ticksOfHost, BitVec.toNat_ofNat, hostTickFactor, Nat.mod_eq_of_lt hle]

/-- The product on the way out does wrap (R244). -/
theorem ticksToHost_toNat (t : Half) : (ticksToHost t).toNat = t.toNat * 60 % 65536 := BitVec.toNat_ofNat _ _

/-- The two bytes of `halfBytes`, high byte first, weigh as the value they are taken from. -/
theorem halfBytes_weight (v : Half) : (v.extractLsb' 8 8).toNat * 256 + (v.extractLsb' 0 8).toNat = v.toNat :=
  (toNat_append_eq (v.extractLsb' 8 8) (v.extractLsb' 0 8)).symm.trans
    (congrArg BitVec.toNat (append_extract_half v))

/-- Settles O31: the two conversions between the tick bases, in the two instructions' next states. -/
theorem speedCommandsComplete : Obligations.SpeedCommandsComplete := by
  intro s h
  constructor
  · exact ⟨ticksOfHost h, ticksOfHost_toNat h, exec_setSpeed h s⟩
  · refine ⟨_, _, ?_, exec_getSpeed s⟩
    rw [halfBytes_weight, ticksToHost_toNat]

/-! CONNECT -/

@[simp] theorem freeBytes_zero (s : State) : s.freeBytes 0 = [] := rfl

/-- CONNECT when its synchronize is answered with an accepted count. -/
theorem exec_connect_ok {s : State} {w : Word} {f : Rat} (h : syncOutcome s.nextAnswer = some (w, f)) :
    exec .connect s = .next (((afterMeasure w f s).releaseLatches.setSpeedMode .sync).respond .ok []) := by
  rw [exec_connect, synchronize_ok h, connectWith]

/-- CONNECT when its synchronize fails. -/
theorem exec_connect_err {s : State} (h : syncOutcome s.nextAnswer = none) :
    exec .connect s = .next (((afterSyncFailure s).setSpeedMode .none).respondErr .syncTimeout 0) := by
  rw [exec_connect, synchronize_err h, connectWith]

/-- Settles O32: the fields of the two next states of CONNECT. -/
theorem connectCompletes : Obligations.ConnectCompletes := by
  intro s
  constructor
  · intro w f h
    obtain ⟨-, rfl⟩ := syncOutcome_some_frequency h
    exact ⟨_, exec_connect_ok h, by simp [afterMeasure, Status.code]⟩
  · intro h
    exact ⟨_, exec_connect_err h, by simp [afterSyncFailure, Status.code]⟩

end Sys2Proof.Proofs
end

section
/-! PROOFS. The configuration and status commands (spec/42_dispatcher.md R236 to R241): one equation per instruction, and the
status word taken apart into its two fields. -/

namespace Sys2Proof.Proofs

open Sys2Proof.Machine Sys2Proof.Laws

@[simp] theorem exec_setTarget (s : State) : exec .setTarget s = .next (s.respond .ok []) := rfl

@[simp] theorem exec_controlPins (s : State) : exec .controlPins s = .next (s.respond .ok [0x00, 0x00]) := rfl

@[simp] theorem exec_getCapabilities (s : State) :
    exec .getCapabilities s = .next (s.respond .ok capabilityBytes) := rfl

@[simp] theorem exec_setVdd (vdd : Byte) (s : State) :
    exec (.setVdd vdd) s = .next ((s.setOption Config.vddOffset vdd).respond .ok []) := rfl

@[simp] theorem exec_setOptions (params : List Byte) (s : State) :
    exec (.setOptions params) s = .next (setOptionsOf optionsSize params s) := rfl

@[simp] theorem exec_getBdmStatus (s : State) :
    exec .getBdmStatus s =
      .next (s.popPower.respond .ok (halfBytes (statusWord s.cable.speedMode s.powerSample))) := rfl

/-! GET_CAPABILITIES -/

/-- The limit is reported as a 16-bit value, though every frame size is a byte (R239). -/
theorem halfBytes_maxCommandSize : halfBytes (BitVec.ofNat 16 maxCommandSize) = [0x00, 0xFE] := by decide

/-- Settles O28: the fixed payloads; of the capability payload only the command size is the model's own number. -/
theorem fixedAnswersComplete : Obligations.FixedAnswersComplete := by
  intro s
  refine ⟨exec_setTarget s, exec_controlPins s, ?_⟩
  rw [exec_getCapabilities, capabilityBytes, halfBytes_maxCommandSize]
  rfl

/-! SET_OPTIONS -/

/-- A truncated image is refused whole (R240). -/
theorem setOptionsOf_short {size : Nat} {params : List Byte} (h : params.length < size) (s : State) :
    setOptionsOf size params s = s.respondErr .illegalParams 0 := if_pos h

/-- A full image is written, and what follows it in the frame is not (R240). -/
theorem setOptionsOf_append {size : Nat} {image : List Byte} (h : image.length = size) (extra : List Byte) (s : State) :
    setOptionsOf size (image ++ extra) s = (s.setOptions image).respond .ok [] := by
  have hfull : ¬(image ++ extra).length < size := by
    rw [List.length_append]
    omega
  rw [setOptionsOf, if_neg hfull, List.take_left' h]

/-- Settles O29: SET_VDD's one byte, and SET_OPTIONS on either side of OPTIONS_SIZE. -/
theorem optionsWritesComplete : Obligations.OptionsWritesComplete := by
  intro s vdd image extra params
  refine ⟨exec_setVdd vdd s, fun hfull => ?_, fun hshort => ?_⟩
  · rw [exec_setOptions, setOptionsOf_append hfull]
    rfl
  · rw [exec_setOptions, setOptionsOf_short hshort]

/-! GET_BDM_STATUS -/

/-- The status word's bytes: the speed mode's code above SPEED_SHIFT and the power bit do not overlap, so they add (R238). -/
theorem halfBytes_statusWord (mode : SpeedMode) (power : Bool) :
    halfBytes (statusWord mode power) =
      [0x00, (mode.code <<< speedShift).setWidth 8 + if power then 0x40 else 0x00] := by
  cases mode <;> cases power <;> decide

/-- Settles O30: the power input is drawn once, and each speed mode's code is read off R30's table. -/
theorem statusWordAnswered : Obligations.StatusWordAnswered := by
  intro s
  rw [exec_getBdmStatus, halfBytes_statusWord]
  cases s.cable.speedMode <;> rfl

end Sys2Proof.Proofs
end

section
/-! PROOFS. The reset byte (spec/42_dispatcher.md R248): its three fields as quotients and remainders of the byte's value. -/

namespace Sys2Proof.Proofs

open Sys2Proof.Machine

/-- A bit field of a byte equals `k` exactly when the digit of the byte's value at that place does. -/
theorem byteField_eq_iff (m : Byte) (start len : Nat) (k : BitVec len) :
    m.extractLsb' start len = k ↔ m.toNat / 2 ^ start % 2 ^ len = k.toNat := by
  rw [← BitVec.toNat_inj, BitVec.extractLsb'_toNat, Nat.shiftRight_eq_div_pow]

/-- Bits 7..4 are the whole quotient: a byte has nothing above them. -/
theorem resetUpper_eq_zero_iff (m : Byte) : m.extractLsb' 4 4 = 0 ↔ m.toNat / 16 = 0 := by
  have hquot : m.toNat / 16 % 16 = m.toNat / 16 := Nat.mod_eq_of_lt (by omega)
  rw [byteField_eq_iff]
  exact Eq.congr_left hquot

/-- Bits 3..2, the reset type. -/
theorem resetType_eq_iff (m : Byte) (k : BitVec 2) : m.extractLsb' 2 2 = k ↔ m.toNat / 4 % 4 = k.toNat :=
  byteField_eq_iff m 2 2 k

/-- Bits 1..0, the reset mode. -/
theorem resetMode_toNat (m : Byte) : (m.extractLsb' 0 2).toNat = m.toNat % 4 :=
  BitVec.extractLsb'_toNat 0 2 m

theorem resetMode_eq_zero_iff (m : Byte) : m.extractLsb' 0 2 = 0 ↔ m.toNat % 4 = 0 := by
  rw [← BitVec.toNat_inj, resetMode_toNat]
  rfl

/-- The refused modes are the two of four that are neither SPECIAL nor NORMAL. -/
theorem resetMode_refused_iff (m : Byte) :
    2 ≤ (m.extractLsb' 0 2).toNat ↔ m.toNat % 4 = 2 ∨ m.toNat % 4 = 3 := by
  rw [resetMode_toNat]
  omega

/-- Settles O38: each check of `decodeReset` in turn, in terms of the byte's value. -/
theorem resetByteDecoded : Obligations.ResetByteDecoded := by
  intro m
  simp only [decodeReset, ne_eq, resetUpper_eq_zero_iff, resetMode_refused_iff, resetType_eq_iff,
    resetMode_eq_zero_iff]
  rfl

end Sys2Proof.Proofs
end

section
/-! PROOFS. The character tables (spec/43_codec.md R290 to R292, R296): the digit conversions as arithmetic on values, and
the byte and hex-pair conversions over them. -/

namespace Sys2Proof.Proofs

open Sys2Proof.Machine Sys2Proof.Laws

/-! Hex digits -/

theorem hexToNibble_toNat (c : Byte) :
    (hexToNibble c).toNat =
      if 0x30 ≤ c.toNat ∧ c.toNat ≤ 0x39 then c.toNat - 0x30
      else if 0x41 ≤ c.toNat ∧ c.toNat ≤ 0x46 then c.toNat - 0x41 + 10
      else if 0x61 ≤ c.toNat ∧ c.toNat ≤ 0x66 then c.toNat - 0x61 + 10
      else 0xFF := by
  simp only [hexToNibble, BitVec.le_def]
  split_ifs <;> bv_omega

theorem nibbleToHex_toNat (n : Byte) :
    (nibbleToHex n).toNat =
      if n.toNat ≤ 9 then 0x30 + n.toNat else if n.toNat ≤ 15 then 0x41 + (n.toNat - 10) else 0xFF := by
  simp only [nibbleToHex, BitVec.le_def]
  split_ifs <;> bv_omega

/-- Settles O4: the two tables as arithmetic on the values. -/
theorem hexDigitTables : Obligations.HexDigitTables := ⟨hexToNibble_toNat, nibbleToHex_toNat⟩

/-- What is not the sentinel is a nibble (R290). -/
theorem hexToNibble_le_of_ne {c : Byte} (h : hexToNibble c ≠ 0xFF) : (hexToNibble c).toNat ≤ 15 := by
  have hne : (hexToNibble c).toNat ≠ 0xFF := fun heq => h (BitVec.eq_of_toNat_eq heq)
  rw [hexToNibble_toNat] at hne ⊢
  split_ifs at hne ⊢ <;> omega

/-- The round trip of R291. -/
theorem hexToNibble_nibbleToHex {n : Byte} (h : n.toNat ≤ 15) : hexToNibble (nibbleToHex n) = n := by
  apply BitVec.eq_of_toNat_eq
  rw [hexToNibble_toNat, nibbleToHex_toNat]
  split_ifs <;> omega

/-! The BDM command test -/

/-- Every byte of the fixed set is the opcode of a command (R292, R94). -/
theorem bdmOpOf_isSome_of_valid : ∀ b ∈ validBdmBytes, (bdmOpOf b).isSome = true := by decide

theorem isValidBdmCommand_iff (b : Byte) : isValidBdmCommand b = true ↔ ∃ o : BdmOp, o.code = b := by
  constructor
  · intro hb
    obtain ⟨o, ho⟩ := Option.isSome_iff_exists.mp (bdmOpOf_isSome_of_valid b (List.contains_iff_mem.mp hb))
    exact ⟨o, bdmOpOf_some ho⟩
  · rintro ⟨o, rfl⟩
    exact isValidBdmCommand_code o

/-- Settles O5: the fixed set of R292 is the range of `BdmOp.code`. -/
theorem validityIsOpcodeMap : Obligations.ValidityIsOpcodeMap := ⟨isValidBdmCommand_iff, rfl⟩

/-! Bytes and hex pairs -/

/-- The two nibbles of R296 as quotient and remainder. -/
theorem byteToHex_eq (b : Byte) :
    byteToHex b = [nibbleToHex (BitVec.ofNat 8 (b.toNat / 16)), nibbleToHex (BitVec.ofNat 8 (b.toNat % 16))] := by
  have hhigh : (b.extractLsb' 4 4).setWidth 8 = BitVec.ofNat 8 (b.toNat / 16) := by
    apply BitVec.eq_of_toNat_eq
    simp only [BitVec.toNat_setWidth, BitVec.extractLsb'_toNat, Nat.shiftRight_eq_div_pow, BitVec.toNat_ofNat]
    omega
  have hlow : (b.extractLsb' 0 4).setWidth 8 = BitVec.ofNat 8 (b.toNat % 16) := by
    apply BitVec.eq_of_toNat_eq
    simp only [BitVec.toNat_setWidth, BitVec.extractLsb'_toNat, Nat.shiftRight_eq_div_pow, BitVec.toNat_ofNat]
    omega
  rw [byteToHex, hhigh, hlow]

theorem hexPairToByte_of_not_digit {c1 c2 : Byte} (h : hexToNibble c1 = 0xFF ∨ hexToNibble c2 = 0xFF) :
    hexPairToByte c1 c2 = (false, 0) := if_pos h

theorem hexPairToByte_of_digits {c1 c2 : Byte} (h1 : hexToNibble c1 ≠ 0xFF) (h2 : hexToNibble c2 ≠ 0xFF) :
    hexPairToByte c1 c2 = (true, hexToNibble c1 * 16 + hexToNibble c2) := if_neg (not_or.mpr ⟨h1, h2⟩)

/-- Two nibbles make a byte without a wrap. -/
theorem nibblePair_toNat {h l : Byte} (hh : h.toNat ≤ 15) (hl : l.toNat ≤ 15) :
    (h * 16 + l).toNat = h.toNat * 16 + l.toNat := by
  rw [BitVec.toNat_add, BitVec.toNat_mul, show (16 : Byte).toNat = 16 from rfl]
  omega

/-- The digits of two nibbles read back as the byte of the two. -/
theorem hexPairToByte_nibbleToHex {h l : Byte} (hh : h.toNat ≤ 15) (hl : l.toNat ≤ 15) :
    hexPairToByte (nibbleToHex h) (nibbleToHex l) = (true, h * 16 + l) := by
  have hne : ∀ {n : Byte}, n.toNat ≤ 15 → hexToNibble (nibbleToHex n) ≠ 0xFF := by
    intro n hn heq
    rw [hexToNibble_nibbleToHex hn] at heq
    subst heq
    exact absurd hn (by decide)
  rw [hexPairToByte_of_digits (hne hh) (hne hl), hexToNibble_nibbleToHex hh, hexToNibble_nibbleToHex hl]

/-- The byte read back from the digits of `b` is `b` (R296). -/
theorem hexPairToByte_byteToHex (b : Byte) : ∃ c1 c2, byteToHex b = [c1, c2] ∧ hexPairToByte c1 c2 = (true, b) := by
  have hhigh : (BitVec.ofNat 8 (b.toNat / 16)).toNat = b.toNat / 16 := by
    rw [BitVec.toNat_ofNat]
    omega
  have hlow : (BitVec.ofNat 8 (b.toNat % 16)).toNat = b.toNat % 16 := by
    rw [BitVec.toNat_ofNat]
    omega
  refine ⟨_, _, byteToHex_eq b, ?_⟩
  rw [hexPairToByte_nibbleToHex (by omega) (by omega)]
  refine congrArg _ (BitVec.eq_of_toNat_eq ?_)
  rw [nibblePair_toNat (by omega) (by omega), hhigh, hlow]
  omega

/-- Settles O8: a byte to its digits and back, and every pair of characters, refused or read. -/
theorem hexPairReadsByteBack : Obligations.HexPairReadsByteBack := by
  refine ⟨fun b => ⟨byteToHex_eq b, hexPairToByte_byteToHex b⟩, fun c1 c2 => ⟨hexPairToByte_of_not_digit, ?_⟩⟩
  intro h1 h2
  exact ⟨_, hexPairToByte_of_digits h1 h2, nibblePair_toNat (hexToNibble_le_of_ne h1) (hexToNibble_le_of_ne h2)⟩

end Sys2Proof.Proofs
end

section
/-! PROOFS. The bit packers (spec/43_codec.md R293, R294): the value of a bit array in either order, digit by digit, and each
packer as that value as long as nothing leaves the 32-bit word. -/

namespace Sys2Proof.Proofs

open Sys2Proof.Machine

/-! The value of a bit array -/

/-- The value R293 gives a bit array, its first bit most significant. -/
def msbValue (bits : List Bool) : Nat := ∑ i : Fin bits.length, bits[i].toNat * 2 ^ (bits.length - 1 - i.val)

/-- The value R294 gives a bit array, its first bit least significant. -/
def lsbValue (bits : List Bool) : Nat := ∑ i : Fin bits.length, bits[i].toNat * 2 ^ i.val

@[simp] theorem msbValue_nil : msbValue [] = 0 := rfl

@[simp] theorem lsbValue_nil : lsbValue [] = 0 := rfl

/-- The first bit weighs the most; the weights of the others are those of the rest alone. -/
theorem msbValue_cons (b : Bool) (bs : List Bool) : msbValue (b :: bs) = b.toNat * 2 ^ bs.length + msbValue bs := by
  refine (Fin.sum_univ_succ (n := bs.length) _).trans ?_
  refine congrArg _ (Finset.sum_congr rfl fun i _ => ?_)
  have hweight : (b :: bs).length - 1 - i.succ.val = bs.length - 1 - i.val := by
    rw [List.length_cons, Fin.val_succ]
    omega
  rw [hweight]
  rfl

/-- The first bit weighs 1, and doubles the weights of the others. -/
theorem lsbValue_cons (b : Bool) (bs : List Bool) : lsbValue (b :: bs) = b.toNat + 2 * lsbValue bs := by
  refine (Fin.sum_univ_succ (n := bs.length) _).trans ?_
  rw [lsbValue, Finset.mul_sum]
  refine congrArg₂ _ (Nat.mul_one _) (Finset.sum_congr rfl fun i _ => ?_)
  rw [Fin.val_succ, pow_succ', mul_left_comm]
  rfl

/-! One bit joined to a word -/

theorem bitWord_toNat (b : Bool) : (if b then (1 : Word) else 0).toNat = b.toNat := by cases b <;> rfl

/-- A bit put above everything set in a word adds its weight. -/
theorem or_bit_toNat {i : Nat} {v : Word} (b : Bool) (hi : i < 32) (hv : v.toNat < 2 ^ i) :
    (v ||| (if b then (1 : Word) else 0) <<< i).toNat = v.toNat + 2 ^ i * b.toNat := by
  have hweight : 2 ^ i * b.toNat < 2 ^ 32 :=
    calc 2 ^ i * b.toNat ≤ 2 ^ i := mul_le_of_le_one_right' (Bool.toNat_le b)
      _ < 2 ^ 32 := Nat.pow_lt_pow_right (by decide) hi
  rw [BitVec.toNat_or, BitVec.toNat_shiftLeft, bitWord_toNat, Nat.shiftLeft_eq, mul_comm, Nat.mod_eq_of_lt hweight,
    Nat.or_comm, ← Nat.two_pow_add_eq_or_of_lt hv, add_comm]

/-- One step of the MSB-first packer while the top bit is clear. -/
theorem packMsbStep_toNat {v : Word} (b : Bool) (hv : v.toNat < 2 ^ 31) :
    (packMsbStep v b).toNat = 2 * v.toNat + b.toNat := by
  have hdouble : (v <<< 1).toNat = 2 ^ 1 * v.toNat := by
    rw [BitVec.toNat_shiftLeft, Nat.shiftLeft_eq]
    omega
  rw [packMsbStep, BitVec.toNat_or, bitWord_toNat, hdouble, ← Nat.two_pow_add_eq_or_of_lt (Bool.toNat_lt b), pow_one]

/-! The packers -/

/-- The invariant of R293's loop: the bits still to come fit above what they find in the word. -/
theorem foldl_packMsbStep_toNat (bits : List Bool) (v : Word) (hfit : (v.toNat + 1) * 2 ^ bits.length ≤ 2 ^ 32) :
    (bits.foldl packMsbStep v).toNat = v.toNat * 2 ^ bits.length + msbValue bits := by
  induction bits generalizing v with
  | nil => simp
  | cons b bs ih =>
    rw [List.length_cons, pow_succ] at hfit ⊢
    have hpos : 1 ≤ 2 ^ bs.length := Nat.one_le_two_pow
    have htop : v.toNat < 2 ^ 31 := by nlinarith
    have hstep := packMsbStep_toNat b htop
    have hb : b.toNat ≤ 1 := Bool.toNat_le b
    have hfit' : ((packMsbStep v b).toNat + 1) * 2 ^ bs.length ≤ 2 ^ 32 := by
      rw [hstep]
      nlinarith
    rw [List.foldl_cons, ih _ hfit', hstep, msbValue_cons]
    ring

/-- The invariant of R294's loop: what is in the word lies below the next bit. -/
theorem packLsbFrom_toNat (bits : List Bool) (i : Nat) (v : Word) (hv : v.toNat < 2 ^ i) (hfit : i + bits.length ≤ 32) :
    (packLsbFrom i bits v).toNat = v.toNat + 2 ^ i * lsbValue bits := by
  induction bits generalizing i v with
  | nil => simp [packLsbFrom]
  | cons b bs ih =>
    rw [List.length_cons] at hfit
    have hstep := or_bit_toNat b (by omega) hv
    have hb : b.toNat ≤ 1 := Bool.toNat_le b
    have hv' : (v ||| (if b then (1 : Word) else 0) <<< i).toNat < 2 ^ (i + 1) := by
      rw [hstep, pow_succ]
      nlinarith
    rw [packLsbFrom, ih _ _ hv' (by omega), hstep, lsbValue_cons]
    ring

theorem packMsb_of_le {bits : List Bool} (h : bits.length ≤ 32) : packMsb bits = (true, bits.foldl packMsbStep 0) :=
  if_neg (Nat.not_lt.mpr h)

theorem packLsb_of_le {bits : List Bool} (h : bits.length ≤ 32) : packLsb bits = (true, packLsbFrom 0 bits 0) :=
  if_neg (Nat.not_lt.mpr h)

theorem packMsb_toNat {bits : List Bool} (h : bits.length ≤ 32) : (packMsb bits).2.toNat = msbValue bits := by
  have hfit : ((0 : Word).toNat + 1) * 2 ^ bits.length ≤ 2 ^ 32 := by
    simpa using Nat.pow_le_pow_right (n := 2) (by decide) h
  rw [packMsb_of_le h, foldl_packMsbStep_toNat bits 0 hfit]
  simp

theorem packLsb_toNat {bits : List Bool} (h : bits.length ≤ 32) : (packLsb bits).2.toNat = lsbValue bits := by
  rw [packLsb_of_le h, packLsbFrom_toNat bits 0 0 (by decide) (by omega)]
  simp

/-- Settles O6: each packer's loop computes the sum, and the length check comes before the loop. -/
theorem packedValueIsWeightedSum : Obligations.PackedValueIsWeightedSum := by
  intro bits
  constructor
  · intro h
    exact ⟨congrArg Prod.fst (packMsb_of_le h), congrArg Prod.fst (packLsb_of_le h), packMsb_toNat h, packLsb_toNat h⟩
  · intro h
    exact ⟨if_pos h, if_pos h⟩

end Sys2Proof.Proofs
end

section
/-! PROOFS. The tokenizer (spec/43_codec.md R297): its two moves, and what they keep of the piece in progress. -/

namespace Sys2Proof.Proofs

open Sys2Proof.Machine

theorem isSeparator_iff (c : Byte) : isSeparator c = true ↔ c = 0x20 ∨ c = 0x09 ∨ c = 0x0D ∨ c = 0x0A := by
  simp [isSeparator, or_assoc]

/-- A separator closes the piece in progress as the end of the string does, and the next one starts empty. -/
theorem tokenizeFrom_separator {c : Byte} (hc : isSeparator c = true) (piece cs : List Byte) :
    tokenizeFrom piece (c :: cs) = tokenizeFrom piece [] ++ tokenize cs := by
  cases piece <;> simp [tokenizeFrom, tokenize, hc]

/-- Any other character joins the piece in progress. -/
theorem tokenizeFrom_character {c : Byte} (hc : isSeparator c = false) (piece cs : List Byte) :
    tokenizeFrom piece (c :: cs) = tokenizeFrom (piece ++ [c]) cs := by
  simp [tokenizeFrom, hc]

/-- Empty pieces are dropped. -/
@[simp] theorem tokenizeFrom_nil_nil : tokenizeFrom [] [] = [] := rfl

theorem tokenizeFrom_nil {piece : List Byte} (h : piece ≠ []) : tokenizeFrom piece [] = [piece] :=
  if_neg (mt List.isEmpty_iff.mp h)

@[simp] theorem flatten_tokenizeFrom_nil (piece : List Byte) : (tokenizeFrom piece []).flatten = piece := by
  cases piece <;> simp [tokenizeFrom]

/-! What the moves keep -/

theorem tokenizeFrom_append_separator {c : Byte} (hc : isSeparator c = true) (piece s t : List Byte) :
    tokenizeFrom piece (s ++ c :: t) = tokenizeFrom piece s ++ tokenize t := by
  induction s generalizing piece with
  | nil => exact tokenizeFrom_separator hc piece t
  | cons d ds ih =>
    cases hd : isSeparator d with
    | true =>
      have htail : tokenize (ds ++ c :: t) = tokenize ds ++ tokenize t := ih []
      rw [List.cons_append, tokenizeFrom_separator hd, tokenizeFrom_separator hd, htail, List.append_assoc]
    | false => rw [List.cons_append, tokenizeFrom_character hd, tokenizeFrom_character hd, ih]

theorem tokenizeFrom_of_no_separator (piece s : List Byte) (hs : ∀ c ∈ s, isSeparator c = false) :
    tokenizeFrom piece s = tokenizeFrom (piece ++ s) [] := by
  induction s generalizing piece with
  | nil => rw [List.append_nil]
  | cons d ds ih =>
    obtain ⟨hd, hds⟩ := List.forall_mem_cons.mp hs
    rw [tokenizeFrom_character hd, ih _ hds, List.append_assoc, List.singleton_append]

theorem flatten_tokenizeFrom (piece s : List Byte) :
    (tokenizeFrom piece s).flatten = piece ++ s.filter fun c => !isSeparator c := by
  induction s generalizing piece with
  | nil => simp
  | cons d ds ih =>
    cases hd : isSeparator d with
    | true => simp [tokenizeFrom_separator hd, tokenize, ih, hd]
    | false => simp [tokenizeFrom_character hd, ih, hd]

/-- What a token is: never empty, and without separators. -/
def IsToken (t : List Byte) : Prop := t ≠ [] ∧ ∀ c ∈ t, isSeparator c = false

theorem isToken_of_mem_tokenizeFrom_nil {piece t : List Byte} (hp : ∀ c ∈ piece, isSeparator c = false)
    (ht : t ∈ tokenizeFrom piece []) : IsToken t := by
  by_cases hempty : piece = []
  · rw [hempty, tokenizeFrom_nil_nil] at ht
    exact absurd ht List.not_mem_nil
  · rw [tokenizeFrom_nil hempty, List.mem_singleton] at ht
    subst ht
    exact ⟨hempty, hp⟩

theorem isToken_of_mem_tokenizeFrom {piece s t : List Byte} (hp : ∀ c ∈ piece, isSeparator c = false)
    (ht : t ∈ tokenizeFrom piece s) : IsToken t := by
  induction s generalizing piece with
  | nil => exact isToken_of_mem_tokenizeFrom_nil hp ht
  | cons d ds ih =>
    cases hd : isSeparator d with
    | true =>
      rw [tokenizeFrom_separator hd, List.mem_append] at ht
      rcases ht with hclosed | hlater
      · exact isToken_of_mem_tokenizeFrom_nil hp hclosed
      · exact ih (List.forall_mem_nil _) hlater
    | false =>
      rw [tokenizeFrom_character hd] at ht
      refine ih (List.forall_mem_append.mpr ⟨hp, ?_⟩) ht
      rwa [List.forall_mem_singleton]

/-- Settles O9: the laws of `tokenizeFrom`, started with no piece in progress. -/
theorem tokenizeSplitsAtSeparators : Obligations.TokenizeSplitsAtSeparators := by
  refine ⟨isSeparator_iff, ?_, ?_, ?_, ?_⟩
  · intro s t ht
    exact isToken_of_mem_tokenizeFrom (List.forall_mem_nil _) ht
  · intro s t c hc
    exact tokenizeFrom_append_separator hc [] s t
  · intro s hne hs
    exact (tokenizeFrom_of_no_separator [] s hs).trans (tokenizeFrom_nil hne)
  · exact flatten_tokenizeFrom []

end Sys2Proof.Proofs
end

section
/-! PROOFS. The number parser (spec/43_codec.md R298): a run of digits read in either base, the form of a token that decides
between the two, and the bound on the value. -/

namespace Sys2Proof.Proofs

open Sys2Proof.Machine

/-! Runs of digits -/

/-- The decimal digits, as R298 bounds them. -/
def IsDecimalDigit (c : Byte) : Prop := 0x30 ≤ c.toNat ∧ c.toNat ≤ 0x39

theorem decimalValue_cons_of_digit {c : Byte} (hc : IsDecimalDigit c) (acc : Nat) (cs : List Byte) :
    decimalValue acc (c :: cs) = decimalValue (acc * 10 + (c.toNat - 0x30)) cs := by
  have hsub : (c - 0x30).toNat = c.toNat - 0x30 := BitVec.toNat_sub_of_le hc.1
  rw [← hsub]
  exact if_pos hc

theorem decimalValue_cons_of_not_digit {c : Byte} (hc : ¬IsDecimalDigit c) (acc : Nat) (cs : List Byte) :
    decimalValue acc (c :: cs) = none := if_neg hc

theorem decimalValue_of_digits {cs : List Byte} (h : ∀ c ∈ cs, IsDecimalDigit c) (acc : Nat) :
    decimalValue acc cs = some (cs.foldl (fun a c => a * 10 + (c.toNat - 0x30)) acc) := by
  induction cs generalizing acc with
  | nil => rfl
  | cons c cs ih =>
    obtain ⟨hc, hcs⟩ := List.forall_mem_cons.mp h
    rw [decimalValue_cons_of_digit hc, ih hcs, List.foldl_cons]

/-- One character that is no digit refuses the run, wherever it stands. -/
theorem decimalValue_eq_none {cs : List Byte} (h : ¬∀ c ∈ cs, IsDecimalDigit c) (acc : Nat) :
    decimalValue acc cs = none := by
  induction cs generalizing acc with
  | nil => exact absurd (List.forall_mem_nil _) h
  | cons c cs ih =>
    by_cases hc : IsDecimalDigit c
    · rw [decimalValue_cons_of_digit hc]
      exact ih (fun hcs => h (List.forall_mem_cons.mpr ⟨hc, hcs⟩)) _
    · exact decimalValue_cons_of_not_digit hc acc cs

theorem hexValue_cons_of_digit {c : Byte} (hc : hexToNibble c ≠ 0xFF) (acc : Nat) (cs : List Byte) :
    hexValue acc (c :: cs) = hexValue (acc * 16 + (hexToNibble c).toNat) cs := if_neg hc

theorem hexValue_cons_of_not_digit {c : Byte} (hc : hexToNibble c = 0xFF) (acc : Nat) (cs : List Byte) :
    hexValue acc (c :: cs) = none := if_pos hc

theorem hexValue_of_digits {cs : List Byte} (h : ∀ c ∈ cs, hexToNibble c ≠ 0xFF) (acc : Nat) :
    hexValue acc cs = some (cs.foldl (fun a c => a * 16 + (hexToNibble c).toNat) acc) := by
  induction cs generalizing acc with
  | nil => rfl
  | cons c cs ih =>
    obtain ⟨hc, hcs⟩ := List.forall_mem_cons.mp h
    rw [hexValue_cons_of_digit hc, ih hcs, List.foldl_cons]

/-- As `decimalValue_eq_none`, in base 16. -/
theorem hexValue_eq_none {cs : List Byte} (h : ¬∀ c ∈ cs, hexToNibble c ≠ 0xFF) (acc : Nat) :
    hexValue acc cs = none := by
  induction cs generalizing acc with
  | nil => exact absurd (List.forall_mem_nil _) h
  | cons c cs ih =>
    by_cases hc : hexToNibble c = 0xFF
    · exact hexValue_cons_of_not_digit hc acc cs
    · rw [hexValue_cons_of_digit hc]
      exact ih (fun hcs => h (List.forall_mem_cons.mpr ⟨hc, hcs⟩)) _

/-! The form of a token -/

/-- The letter after the 0 that makes a token hexadecimal, in either case. -/
def IsHexMark (x : Byte) : Prop := x = 0x78 ∨ x = 0x58

/-- No decimal token begins as a hexadecimal one: the letter is no digit. -/
theorem IsHexMark.not_digit {x : Byte} (hx : IsHexMark x) : ¬IsDecimalDigit x := by
  rcases hx with rfl | rfl <;> simp [IsDecimalDigit]

theorem tokenValue_mark_alone {x : Byte} (hx : IsHexMark x) : tokenValue [0x30, x] = none := if_pos ⟨rfl, hx⟩

theorem tokenValue_hex {x : Byte} (hx : IsHexMark x) {ds : List Byte} (hds : ds ≠ []) :
    tokenValue (0x30 :: x :: ds) = hexValue 0 ds :=
  (if_pos ⟨rfl, hx⟩).trans (if_neg (mt List.isEmpty_iff.mp hds))

/-- Every token that does not begin with 0 and a mark is read as decimal. -/
theorem tokenValue_decimal {t : List Byte} (ht : t ≠ []) (hx : ∀ x ds, IsHexMark x → t ≠ 0x30 :: x :: ds) :
    tokenValue t = decimalValue 0 t := by
  match t with
  | [] => exact absurd rfl ht
  | [_] => rfl
  | c1 :: c2 :: ds =>
    refine if_neg ?_
    rintro ⟨rfl, hmark⟩
    exact hx c2 ds hmark rfl

theorem tokenValue_of_decimal_digits {ds : List Byte} (hne : ds ≠ []) (h : ∀ c ∈ ds, IsDecimalDigit c) :
    tokenValue ds = some (ds.foldl (fun a c => a * 10 + (c.toNat - 0x30)) 0) := by
  rw [tokenValue_decimal hne, decimalValue_of_digits h]
  rintro x cs hx rfl
  exact hx.not_digit (h x (by simp))

/-- A token of neither form has no value. -/
theorem tokenValue_eq_none {t : List Byte} (hdec : ¬(t ≠ [] ∧ ∀ c ∈ t, IsDecimalDigit c))
    (hhex : ¬∃ ds x, t = 0x30 :: x :: ds ∧ ds ≠ [] ∧ IsHexMark x ∧ ∀ c ∈ ds, hexToNibble c ≠ 0xFF) :
    tokenValue t = none := by
  by_cases hmarked : ∃ x ds, IsHexMark x ∧ t = 0x30 :: x :: ds
  · obtain ⟨x, ds, hx, rfl⟩ := hmarked
    by_cases hds : ds = []
    · rw [hds, tokenValue_mark_alone hx]
    · rw [tokenValue_hex hx hds]
      exact hexValue_eq_none (fun h => hhex ⟨ds, x, rfl, hds, hx, h⟩) 0
  · by_cases ht : t = []
    · rw [ht]
      rfl
    · rw [tokenValue_decimal ht fun x ds hx heq => hmarked ⟨x, ds, hx, heq⟩]
      exact decimalValue_eq_none (fun h => hdec ⟨ht, h⟩) 0

/-! The bound -/

theorem parseNumber_of_some {t : List Byte} {v : Nat} (h : tokenValue t = some v) :
    parseNumber t = if v < 2 ^ 32 then (true, BitVec.ofNat 32 v) else (false, 0) := by
  rw [parseNumber, h]

theorem parseNumber_of_none {t : List Byte} (h : tokenValue t = none) : parseNumber t = (false, 0) := by
  rw [parseNumber, h]

/-- Settles O10: the two forms with a value, and every other token. -/
theorem parseNumberReadsDigits : Obligations.ParseNumberReadsDigits := by
  refine ⟨?_, ?_, ?_⟩
  · intro ds hne h
    exact parseNumber_of_some (tokenValue_of_decimal_digits hne h)
  · intro ds x hne hx h
    exact parseNumber_of_some ((tokenValue_hex hx hne).trans (hexValue_of_digits h 0))
  · intro t hdec hhex
    exact parseNumber_of_none (tokenValue_eq_none hdec hhex)

end Sys2Proof.Proofs
end

section
/-! PROOFS. The two encodings read back (spec/30_encoding.md R91 to R102): the parameter bytes of an instruction read as its
operands, at both levels, and the opcode maps as tables without repetition. -/

namespace Sys2Proof.Proofs

open Sys2Proof.Machine Sys2Proof.Laws

/-! The encoding's level and length, from the model's law for each constructor -/

theorem encodingLevel (i : Instr) : EncodingLevel.Statement i := by
  cases i
  exacts [EncodingLevel.ackEnable, EncodingLevel.ackDisabled, EncodingLevel.background, EncodingLevel.go,
    EncodingLevel.trace1, EncodingLevel.taggo, EncodingLevel.readA, EncodingLevel.readCcr, EncodingLevel.readPc,
    EncodingLevel.readHx, EncodingLevel.readSp, EncodingLevel.readNext, EncodingLevel.readNextWs,
    EncodingLevel.writeA _, EncodingLevel.writeCcr _, EncodingLevel.writePc _, EncodingLevel.writeHx _,
    EncodingLevel.writeSp _, EncodingLevel.writeNext _, EncodingLevel.writeNextWs _, EncodingLevel.readStatus,
    EncodingLevel.writeControl _, EncodingLevel.readByte _, EncodingLevel.readByteWs _, EncodingLevel.readLast,
    EncodingLevel.writeByte _ _, EncodingLevel.writeByteWs _ _, EncodingLevel.readBkpt, EncodingLevel.writeBkpt _,
    EncodingLevel.setTarget, EncodingLevel.setVdd _, EncodingLevel.getBdmStatus, EncodingLevel.getCapabilities,
    EncodingLevel.setOptions _, EncodingLevel.controlPins, EncodingLevel.connect, EncodingLevel.setSpeed _,
    EncodingLevel.getSpeed, EncodingLevel.readStatusReg, EncodingLevel.writeControlReg _, EncodingLevel.targetReset _,
    EncodingLevel.targetStep, EncodingLevel.targetGo, EncodingLevel.targetHalt, EncodingLevel.writeReg _ _,
    EncodingLevel.readReg _, EncodingLevel.writeDreg _ _, EncodingLevel.readDreg _, EncodingLevel.writeMem _ _ _ _,
    EncodingLevel.readMem _ _ _]

/-- An instruction is a BDM command or a host command, never both (R2). -/
theorem bdm_or_host (i : Instr) :
    (∃ o, i.bdmOp = some o ∧ i.hostOp = none) ∨ ∃ o, i.bdmOp = none ∧ i.hostOp = some o := by
  have h := encodingLevel i
  revert h
  unfold EncodingLevel.Statement
  cases i.bdmOp <;> cases i.hostOp <;> simp

theorem encode_bdm {i : Instr} {o : BdmOp} (h : i.bdmOp = some o) : encode i = o.code :: i.bdmParams := by
  simp [encode, h]

theorem encode_host {i : Instr} {o : HostOp} (hb : i.bdmOp = none) (h : i.hostOp = some o) :
    encode i = frameOf o i.hostParams := by simp [encode, hb, h]

theorem hostOp_eq_none {i : Instr} {o : BdmOp} (h : i.bdmOp = some o) : i.hostOp = none := by
  rcases bdm_or_host i with ⟨_, _, hh⟩ | ⟨_, hb, _⟩
  · exact hh
  · simp [h] at hb

theorem bdmOp_eq_none {i : Instr} {o : HostOp} (h : i.hostOp = some o) : i.bdmOp = none := by
  rcases bdm_or_host i with ⟨_, _, hh⟩ | ⟨_, hb, _⟩
  · simp [h] at hh
  · exact hb

theorem bdmParams_length {i : Instr} {o : BdmOp} (h : i.bdmOp = some o) : i.bdmParams.length = o.paramBytes := by
  have hlevel := encodingLevel i
  simp only [EncodingLevel.Statement, h, hostOp_eq_none h, encode_bdm h, List.length_cons] at hlevel
  omega

theorem minNp_le_hostParams {i : Instr} {o : HostOp} (h : i.hostOp = some o) : o.minNp ≤ i.hostParams.length := by
  have hlevel := encodingLevel i
  simp only [EncodingLevel.Statement, h, bdmOp_eq_none h] at hlevel
  exact hlevel.2

/-! Parameter bytes read back as operands -/

theorem be16_halfBytes_alone (v : Half) : be16 (halfBytes v) 0 = v := append_extract_half v

theorem be32_wordBytes_alone (v : Word) : be32 (wordBytes v) 0 = v := append_extract_word v

/-- A 32-bit field behind a 16-bit one (R99, format HIDV). -/
theorem be32_behind_half (id : Half) (v : Word) : be32 (halfBytes id ++ wordBytes v) 2 = v := append_extract_word v

/-- A 16-bit field behind two bytes (R99, format HMEM). -/
theorem be16_behind_bytes (b c : Byte) (v : Half) (p : List Byte) : be16 (b :: c :: (halfBytes v ++ p)) 2 = v :=
  append_extract_half v

/-- Every BDM instruction is read back from its opcode and its parameter bytes (R92). -/
theorem bdmInstr_bdmParams {i : Instr} {o : BdmOp} (h : i.bdmOp = some o) : bdmInstr o i.bdmParams = i := by
  cases i <;> cases h <;> simp [bdmInstr, Instr.bdmParams, be16_halfBytes_alone] <;> rfl

/-- The data bytes of WRITE_MEM are those behind its four header bytes, no more than it counts (R99, R258). -/
theorem hostInstr_writeMem (mode count : Byte) (addr : Half) (data : List Byte) (h : data.length ≤ count.toNat) :
    hostInstr .writeMem ([mode, count] ++ halfBytes addr ++ data) = .writeMem mode count addr data := by
  have hdrop : ([mode, count] ++ halfBytes addr ++ data).drop 4 = data := rfl
  simp only [hostInstr, hdrop, Instr.writeMem.injEq]
  exact ⟨rfl, rfl, be16_behind_bytes mode count addr data, List.take_of_length_le h⟩

/-- Every well-formed host instruction is read back from its opcode and its parameter bytes (R99). -/
theorem hostInstr_hostParams {i : Instr} {o : HostOp} (h : i.hostOp = some o) (hwf : i.wf = true) :
    hostInstr o i.hostParams = i := by
  cases i with
  | writeMem mode count addr data =>
    cases h
    simp only [Instr.wf, wfWriteMem, Bool.and_eq_true, decide_eq_true_eq] at hwf
    exact hostInstr_writeMem mode count addr data hwf.1
  | readMem mode count addr =>
    cases h
    simp only [hostInstr, Instr.readMem.injEq]
    exact ⟨rfl, rfl, append_extract_half addr⟩
  | _ =>
    cases h <;>
      simp [hostInstr, Instr.hostParams, be16_halfBytes_alone, be32_wordBytes_alone, be32_behind_half, byteAt]

/-- A well-formed host instruction fits a command frame (R97). -/
theorem frame_fits {i : Instr} (hwf : i.wf = true) : 2 + i.hostParams.length ≤ maxCommandSize := by
  cases i with
  | setOptions params => simpa [Instr.wf, wfSetOptions, Instr.hostParams] using hwf
  | writeMem mode count addr data =>
    simp only [Instr.wf, wfWriteMem, Bool.and_eq_true, decide_eq_true_eq] at hwf
    simp only [Instr.hostParams, List.length_append, List.length_cons, List.length_nil, halfBytes_length]
    omega
  | _ => simp [Instr.hostParams, maxCommandSize]

theorem decodeBdm_encode {i : Instr} {o : BdmOp} (h : i.bdmOp = some o) : decodeBdm (encode i) = .ok (i, []) := by
  have hlen := bdmParams_length h
  rw [encode_bdm h, decodeBdm_cons (bdmOpOf_code o), if_neg (by omega), bdmInstr_bdmParams h, ← hlen, List.drop_length]

theorem decodeFrame_encode {i : Instr} {o : HostOp} (h : i.hostOp = some o) (hwf : i.wf = true) :
    decodeFrame (encode i) = .ok i := by
  have hfits := frame_fits hwf
  have hsize : (BitVec.ofNat 8 (2 + i.hostParams.length)).toNat = 2 + i.hostParams.length := by
    rw [BitVec.toNat_ofNat, Nat.mod_eq_of_lt]
    rw [maxCommandSize] at hfits
    omega
  rw [encode_host (bdmOp_eq_none h) h, frameOf,
    decodeFrame_ok (by omega) (by omega) (hostOpOf_code o) (minNp_le_hostParams h), hostInstr_hostParams h hwf]

/-- Settles O1: at either level the opcode byte selects the row back, and the row reads its own parameter bytes back. -/
theorem encodingDecodesBack : Obligations.EncodingDecodesBack := by
  intro i hwf
  rcases bdm_or_host i with ⟨o, hb, _⟩ | ⟨o, hb, hh⟩
  · simp [Instr.toInput, hb, decodeInput, decodeBdm_encode hb, Except.toOption]
  · simp [Instr.toInput, hb, decodeInput, decodeFrame_encode hh hwf, Except.toOption]

/-- Settles O2: the eight words, decoded by evaluation. -/
theorem sampleWordsDecode : Obligations.SampleWordsDecode := ⟨rfl, rfl, rfl, rfl, rfl, rfl, rfl, rfl⟩

/-! The opcode maps -/

theorem bdmOpOf_eq_some_iff (b : Byte) (o : BdmOp) : bdmOpOf b = some o ↔ o.code = b :=
  ⟨bdmOpOf_some, fun h => h ▸ bdmOpOf_code o⟩

theorem hostOpOf_eq_some_iff (b : Byte) (o : HostOp) : hostOpOf b = some o ↔ o.code = b :=
  ⟨hostOpOf_some, fun h => h ▸ hostOpOf_code o⟩

/-- Settles O3: the two maps are the opcode tables read backwards; the unused bytes are counted one by one. -/
theorem opcodeMapsExact : Obligations.OpcodeMapsExact :=
  ⟨bdmOpOf_eq_some_iff, hostOpOf_eq_some_iff, by decide +kernel, by decide +kernel⟩

end Sys2Proof.Proofs
end

section
/-! PROOFS. The bit unpackers undo the packers (spec/43_codec.md R295): the binary digits of a bit array's value are its
bits. -/

namespace Sys2Proof.Proofs

open Sys2Proof.Machine

theorem msbValue_lt (bits : List Bool) : msbValue bits < 2 ^ bits.length := by
  induction bits with
  | nil => simp
  | cons b bs ih =>
    have hb : b.toNat ≤ 1 := Bool.toNat_le b
    rw [msbValue_cons, List.length_cons, pow_succ]
    nlinarith

/-- Digit `i` of the value R294 gives is bit `i`. -/
theorem testBit_lsbValue (bits : List Bool) (i : Nat) (h : i < bits.length) : (lsbValue bits).testBit i = bits[i] := by
  induction bits generalizing i with
  | nil => simp at h
  | cons b bs ih =>
    have hb : b.toNat < 2 := Bool.toNat_lt b
    rw [lsbValue_cons]
    cases i with
    | zero =>
      have hodd : (b.toNat + 2 * lsbValue bs) % 2 = b.toNat := by omega
      rw [Nat.testBit_zero, hodd]
      cases b <;> rfl
    | succ i =>
      have hhalf : (b.toNat + 2 * lsbValue bs) / 2 = lsbValue bs := by omega
      rw [Nat.testBit_succ, hhalf, ih i (Nat.lt_of_succ_lt_succ h), List.getElem_cons_succ]

/-- Digit `n-1-i` of the value R293 gives is bit `i`. -/
theorem testBit_msbValue (bits : List Bool) (i : Nat) (h : i < bits.length) :
    (msbValue bits).testBit (bits.length - 1 - i) = bits[i] := by
  induction bits generalizing i with
  | nil => simp at h
  | cons b bs ih =>
    rw [msbValue_cons, mul_comm, Nat.testBit_two_pow_mul_add _ (msbValue_lt bs), List.length_cons]
    cases i with
    | zero =>
      rw [if_neg (by omega)]
      cases b <;> simp
    | succ i =>
      have hi : i < bs.length := Nat.lt_of_succ_lt_succ h
      rw [if_pos (by omega), List.getElem_cons_succ, ← ih i hi]
      congr 1
      omega

theorem unpackMsb_packMsb {bits : List Bool} (h : bits.length ≤ 32) :
    unpackMsb (packMsb bits).2 bits.length = (true, bits) := by
  rw [unpackMsb, if_neg (Nat.not_lt.mpr h)]
  refine congrArg (Prod.mk true) (List.ext_getElem (by simp) fun i _ hi => ?_)
  rw [List.getElem_map, List.getElem_range, BitVec.getLsbD, packMsb_toNat h, testBit_msbValue bits i hi]

theorem unpackLsb_packLsb {bits : List Bool} (h : bits.length ≤ 32) :
    unpackLsb (packLsb bits).2 bits.length = (true, bits) := by
  rw [unpackLsb, if_neg (Nat.not_lt.mpr h)]
  refine congrArg (Prod.mk true) (List.ext_getElem (by simp) fun i _ hi => ?_)
  rw [List.getElem_map, List.getElem_range, BitVec.getLsbD, packLsb_toNat h, testBit_lsbValue bits i hi]

/-- Settles O7: the unpackers read the digits of the packed values; the nibble's round trip is the digit tables'. -/
theorem unpackUndoesPack : Obligations.UnpackUndoesPack := by
  refine ⟨fun bits h => ⟨unpackMsb_packMsb h, unpackLsb_packLsb h⟩, fun v n h => ?_, fun n => hexToNibble_nibbleToHex⟩
  simp [unpackMsb, unpackLsb, h]

end Sys2Proof.Proofs
end

section
/-! PROOFS. The numeric conversions of the sync measurement at the default parameters (spec/40_engine_core.md R132, R136,
R139). -/

namespace Sys2Proof.Proofs

open Sys2Proof.Machine Sys2Proof.Laws

/-- Truncation to 8 fractional bits (R139). -/
theorem quantize_eq (x : Rat) : quantize x = (⌊x * 256⌋ : Rat) / 256 := by
  have hscale : ((2 ^ divFracBits : Nat) : Rat) = 256 := by norm_num [divFracBits]
  rw [quantize, hscale]
  rfl

theorem clockDivider_eq (f : Rat) : clockDivider f = (⌊125000000 / f * 256⌋ : Rat) / 256 := quantize_eq _

/-- The default parameters of R8 make F(w) = 128 000 000 / w (R136). -/
theorem syncFrequency_eq (w : Nat) : syncFrequency w = 128000000 / (w : Rat) := by
  rw [syncFrequency, measuredTimeMicros, syncTargetCycles, syncTickCycles, syncPeriodMicros]
  ring_nf

/-- Nothing is truncated: 125 000 000 / F(w) is a whole number of 256ths (R139). -/
theorem clockDivider_syncFrequency {w : Nat} (h : 1 ≤ w) :
    clockDivider (syncFrequency w) = 250 * (w : Rat) / 256 := by
  have hw : (w : Rat) ≠ 0 := Nat.cast_ne_zero.mpr (by omega)
  have hscaled : 125000000 / syncFrequency w * 256 = ((250 * w : Nat) : Rat) := by
    rw [syncFrequency_eq]
    field_simp
    push_cast
    ring
  rw [clockDivider_eq, hscaled, Int.floor_natCast]
  push_cast
  ring

theorem divSync_eq : divSync = 125 / 2 := by
  have hscaled : weInputClockHz / syncFreqHz * 256 = ((16000 : Nat) : Rat) := by norm_num [weInputClockHz, syncFreqHz]
  rw [divSync, quantize_eq, hscaled, Int.floor_natCast]
  norm_num

/-- Within 16 bits the divider's upper bound is never reached, and only w = 1 is below its lower bound. -/
theorem divider_out_of_range_iff {w : Nat} (h : 1 ≤ w) (hmax : w ≤ 0xFFFF) :
    ¬(divMin ≤ clockDivider (syncFrequency w) ∧ clockDivider (syncFrequency w) ≤ divMax) ↔ w = 1 := by
  have hle : (w : Rat) ≤ 65535 := by exact_mod_cast hmax
  have hupper : 250 * (w : Rat) / 256 ≤ 65536 := by linarith
  have hlower : (1 : Rat) ≤ 250 * (w : Rat) / 256 ↔ 2 ≤ w := by
    rw [le_div_iff₀ (by norm_num)]
    constructor
    · intro h1
      by_contra hlt
      have hone : w = 1 := by omega
      norm_num [hone] at h1
    · intro h2
      have h2' : (2 : Rat) ≤ w := by exact_mod_cast h2
      linarith
  rw [clockDivider_syncFrequency h, divMin, divMax, and_iff_left hupper, hlower]
  omega

/-- Settles O12: the closed forms of F(w), Div(F(w)) and DIV_SYNC, and the one refused divider. -/
theorem frequencyAndDividerExact : Obligations.FrequencyAndDividerExact :=
  ⟨fun w h => ⟨syncFrequency_eq w, clockDivider_syncFrequency h⟩, divSync_eq, clockDivider_eq,
    fun _ h hmax => divider_out_of_range_iff h hmax⟩

end Sys2Proof.Proofs
end

section
/-! PROOFS. One transaction from every state (spec/40_engine_core.md R130, R140 to R148): the fields of the three next states
`knownShift`, `afterMeasure` and `afterSyncFailure`, and the statements about a bare executeTransaction read off them. -/

namespace Sys2Proof.Proofs

open Sys2Proof.Machine Sys2Proof.Laws

/-! Claim -/

/-- Settles O11: the claim's two cases, the second of which makes a second claim do nothing. -/
theorem claimOnce : Obligations.ClaimOnce := by
  intro s
  refine ⟨fun h => ?_, ensureClaimed_of_claimed, ensureClaimed_of_claimed (by simp)⟩
  rw [ensureClaimed_state, claimEvents, h]
  rfl

/-! The fields of the state after a transaction whose clock was known -/

section KnownShift

variable (tx : Word) (nt nr : Nat) (a : WeAnswer) (s : State)

@[simp] theorem knownShift_claimed : (knownShift tx nt nr a s).eng.claimed = true := rfl
@[simp] theorem knownShift_progLoaded : (knownShift tx nt nr a s).eng.progLoaded = (a != .timeout) := rfl
@[simp] theorem knownShift_clockKnown : (knownShift tx nt nr a s).eng.clockKnown = (a != .timeout) := rfl
@[simp] theorem knownShift_fPio : (knownShift tx nt nr a s).eng.fPio = s.eng.fPio := rfl
@[simp] theorem knownShift_syncTicks : (knownShift tx nt nr a s).eng.syncTicks = s.eng.syncTicks := rfl
@[simp] theorem knownShift_seq : (knownShift tx nt nr a s).eng.seq = s.eng.seq := rfl
@[simp] theorem knownShift_cable : (knownShift tx nt nr a s).cable = s.cable := popAnswer_cable s
@[simp] theorem knownShift_options : (knownShift tx nt nr a s).options = s.options := popAnswer_options s
@[simp] theorem knownShift_disp : (knownShift tx nt nr a s).disp = s.disp := popAnswer_disp s
@[simp] theorem knownShift_weAnswers : (knownShift tx nt nr a s).io.weAnswers = s.io.weAnswers.tail :=
  popAnswer_io_weAnswers s
@[simp] theorem knownShift_trace :
    (knownShift tx nt nr a s).io.trace = s.io.trace ++ claimEvents s ++ loadEvents s ++ shiftEvents tx nt nr a := rfl
@[simp] theorem knownShift_we :
    (knownShift tx nt nr a s).we =
      { program := if s.eng.progLoaded then s.we.program else some .txn
        divider := if s.eng.progLoaded then s.we.divider else clockDivider s.eng.fPio
        outstanding := none
        rxChannel := none } := rfl

end KnownShift

/-! The fields of the state after an accepted implicit synchronize, and after a refused one -/

section Measure

variable (v : Word) (f : Rat) (s : State)

@[simp] theorem afterMeasure_claimed : (afterMeasure v f s).eng.claimed = true := rfl
@[simp] theorem afterMeasure_progLoaded : (afterMeasure v f s).eng.progLoaded = false := rfl
@[simp] theorem afterMeasure_clockKnown : (afterMeasure v f s).eng.clockKnown = true := rfl
@[simp] theorem afterMeasure_fPio : (afterMeasure v f s).eng.fPio = f := rfl
@[simp] theorem afterMeasure_syncTicks : (afterMeasure v f s).eng.syncTicks = v.extractLsb' 0 16 := rfl
@[simp] theorem afterMeasure_seq : (afterMeasure v f s).eng.seq = s.eng.seq := rfl
@[simp] theorem afterMeasure_cable : (afterMeasure v f s).cable = s.cable := popAnswer_cable s
@[simp] theorem afterMeasure_options : (afterMeasure v f s).options = s.options := popAnswer_options s
@[simp] theorem afterMeasure_disp : (afterMeasure v f s).disp = s.disp := popAnswer_disp s
@[simp] theorem afterMeasure_weAnswers : (afterMeasure v f s).io.weAnswers = s.io.weAnswers.tail :=
  popAnswer_io_weAnswers s
@[simp] theorem afterMeasure_inbox : (afterMeasure v f s).io.inbox = s.io.inbox := popAnswer_io_inbox s
@[simp] theorem afterMeasure_powerSamples : (afterMeasure v f s).io.powerSamples = s.io.powerSamples :=
  popAnswer_io_powerSamples s
@[simp] theorem afterMeasure_responses : (afterMeasure v f s).io.responses = s.io.responses := popAnswer_io_responses s
@[simp] theorem afterMeasure_results : (afterMeasure v f s).io.results = s.io.results := popAnswer_io_results s
@[simp] theorem afterMeasure_trace : (afterMeasure v f s).io.trace = s.io.trace ++ syncEvents s (.done v) := rfl
@[simp] theorem claimEvents_afterMeasure : claimEvents (afterMeasure v f s) = [] := rfl
@[simp] theorem loadEvents_afterMeasure :
    loadEvents (afterMeasure v f s) = [.request (.load .txn (clockDivider f))] := rfl

/-- The answers still to come are those behind the one the synchronize took. -/
@[simp] theorem nextAnswer_afterMeasure : (afterMeasure v f s).nextAnswer = s.popAnswer.nextAnswer := nextAnswer_congr rfl rfl

@[simp] theorem afterSyncFailure_claimed : (afterSyncFailure s).eng.claimed = true := rfl
@[simp] theorem afterSyncFailure_progLoaded : (afterSyncFailure s).eng.progLoaded = false := rfl
@[simp] theorem afterSyncFailure_clockKnown : (afterSyncFailure s).eng.clockKnown = false := rfl
@[simp] theorem afterSyncFailure_fPio : (afterSyncFailure s).eng.fPio = s.eng.fPio := rfl
@[simp] theorem afterSyncFailure_syncTicks : (afterSyncFailure s).eng.syncTicks = s.eng.syncTicks := rfl
@[simp] theorem afterSyncFailure_seq : (afterSyncFailure s).eng.seq = s.eng.seq := rfl
@[simp] theorem afterSyncFailure_cable : (afterSyncFailure s).cable = s.cable := popAnswer_cable s
@[simp] theorem afterSyncFailure_options : (afterSyncFailure s).options = s.options := popAnswer_options s
@[simp] theorem afterSyncFailure_disp : (afterSyncFailure s).disp = s.disp := popAnswer_disp s
@[simp] theorem afterSyncFailure_trace :
    (afterSyncFailure s).io.trace = s.io.trace ++ syncEvents s s.nextAnswer := rfl

end Measure

/-! executeTransaction at the engine's own port -/

theorem executeTransaction_within (op : Byte) {P nt nr : Nat} (h8 : 8 ≤ nt) (hnt : nt ≤ 32) (hnr : nr ≤ 32)
    (hP : P < 2 ^ (nt - 8)) (s : State) : executeTransaction op P nt nr s = .next (transact op P nt nr s) :=
  if_pos ((transactionPre_iff P nt nr).mpr ⟨h8, hnt, hnr, hP⟩)

theorem executeTransaction_outside (op : Byte) {P nt nr : Nat} (h : ¬(8 ≤ nt ∧ nt ≤ 32 ∧ nr ≤ 32 ∧ P < 2 ^ (nt - 8)))
    (s : State) : executeTransaction op P nt nr s = .fault .preconditionViolation :=
  if_neg (mt (transactionPre_iff P nt nr).mp h)

/-- Settles O15: `transact_known` with a completion; the flags it writes are those that stood. -/
theorem transactionClockKnown : Obligations.TransactionClockKnown := by
  intro op P nt nr s w h8 hnt hnr hP hk ha
  refine ⟨knownShift (txWordOf op P nt) nt nr (.done w) s, receivedOf (BitVec.ofNat 6 nr) w, txWordOf op P nt, ?_,
    receivedOf_toNat w hnr, txWordOf_toNat h8 hnt hP, ?_⟩
  · rw [executeTransaction_within op h8 hnt hnr hP, transact_known hk, ha, shiftReply]
  · refine releaseLatches_congr ?_ rfl rfl rfl rfl rfl
    simp [restingEq, hk]

/-- Settles O16: the shift starts from `afterMeasure`, which has nothing loaded that the shift could use. -/
theorem transactionClockUnknown : Obligations.TransactionClockUnknown := by
  intro op P nt nr s v w f h8 hnt hnr hP hk hv hf ha
  refine ⟨knownShift (txWordOf op P nt) nt nr (.done w) (afterMeasure v f s), receivedOf (BitVec.ofNat 6 nr) w,
    txWordOf op P nt, ?_, receivedOf_toNat w hnr, txWordOf_toNat h8 hnt hP, ?_⟩
  · rw [executeTransaction_within op h8 hnt hnr hP, transact_unknown_ok hk hv hf, ha, shiftReply]
  · have hpop := popAnswer_eq (s := s.popAnswer) (t := afterMeasure v f s) rfl rfl
    rw [knownShift, hpop]
    refine releaseLatches_congr ?_ ?_ ?_ ?_ ?_ ?_ <;> simp [restingEq]

/-- Settles O17: the fields of `afterSyncFailure`. -/
theorem transactionSyncFailure : Obligations.TransactionSyncFailure := by
  intro op P nt nr s h8 hnt hnr hP hk ha
  refine ⟨afterSyncFailure s, ?_, by simp⟩
  rw [executeTransaction_within op h8 hnt hnr hP, transact_unknown_err hk ha]

/-- Settles O18: the fields of `knownShift` after a Timeout, from the state at the start or after the synchronize. -/
theorem transactionTimeout : Obligations.TransactionTimeout := by
  intro op P nt nr s h8 hnt hnr hP
  constructor
  · intro hk ha
    refine ⟨knownShift (txWordOf op P nt) nt nr .timeout s, _, ?_, txWordOf_toNat h8 hnt hP, by simp⟩
    rw [executeTransaction_within op h8 hnt hnr hP, transact_known hk, ha, shiftReply]
  · intro v f hk hv hf ha
    refine ⟨knownShift (txWordOf op P nt) nt nr .timeout (afterMeasure v f s), _, ?_, txWordOf_toNat h8 hnt hP, by simp⟩
    rw [executeTransaction_within op h8 hnt hnr hP, transact_unknown_ok hk hv hf, ha, shiftReply]

/-! The preconditions -/

theorem format_txBits_bounds (g : BdmFormat) : 8 ≤ g.txBits ∧ g.txBits ≤ 32 ∧ g.rxBits ≤ 32 := by cases g <;> decide

theorem format_fields_sum (g : BdmFormat) : g.fields.sum = g.txBits - 8 := by cases g <;> rfl

/-- The parameters of a row fit the bits its transmit count leaves them, whatever the arguments (R180, R181). -/
theorem packFields_row_lt (o : BdmOp) (args : List Nat) :
    packFields o.format.fields args 0 < 2 ^ (o.format.txBits - 8) := by
  have h := packFields_lt o.format.fields args 0 0 Nat.one_pos
  rwa [Nat.zero_add, format_fields_sum] at h

/-- Every instruction has a next state in every state (R328). -/
theorem exec_next (i : Instr) (s : State) : ∃ t, exec i s = .next t := by cases i <;> exact ⟨_, rfl⟩

/-- Settles O19: R142's check is the only fault there is, every row passes it, and no arm of `exec` makes it. -/
theorem preconditionsOnlyFault : Obligations.PreconditionsOnlyFault := by
  refine ⟨fun op P nt nr s => ⟨fun h hpre => ?_, fun h => executeTransaction_outside op h s⟩, fun o args => ?_, exec_next⟩
  · obtain ⟨h8, hnt, hnr, hP⟩ := hpre
    rw [executeTransaction_within op h8 hnt hnr hP] at h
    cases h
  · obtain ⟨h8, hnt, hnr⟩ := format_txBits_bounds o.format
    exact ⟨h8, hnt, hnr, packFields_row_lt o args⟩

end Sys2Proof.Proofs
end

section
/-! PROOFS. The BDM commands at the engine interface (spec/41_bdm_commands.md R180 to R212): the transmit word of a row and
what a command's answer makes of the state, said once for all 29 rows; then the commands by name on a warm engine. -/

namespace Sys2Proof.Proofs

open Sys2Proof.Machine Sys2Proof.Laws

/-! The transmit word of a row -/

/-- The word the row of `o` shifts (R91, R180). -/
def rowWord (o : BdmOp) (args : List Nat) : Word :=
  txWordOf o.code (packFields o.format.fields args 0) o.format.txBits

theorem rowWord_byte {o : BdmOp} (hf : o.format.fields = [8]) (ht : o.format.txBits = 16) (d : Byte) :
    rowWord o [d.toNat] = (o.code ++ d).setWidth 32 := by
  rw [rowWord, hf, ht]
  exact txWordOf_b3 o.code d

theorem rowWord_half {o : BdmOp} (hf : o.format.fields = [16]) (ht : o.format.txBits = 24) (v : Half) :
    rowWord o [v.toNat] = (o.code ++ v).setWidth 32 := by
  rw [rowWord, hf, ht]
  exact txWordOf_b5 o.code v

theorem rowWord_halfByte {o : BdmOp} (hf : o.format.fields = [16, 8]) (ht : o.format.txBits = 32) (a : Half) (d : Byte) :
    rowWord o [a.toNat, d.toNat] = o.code ++ (a ++ d) := by
  rw [rowWord, hf, ht]
  exact txWordOf_b8 o.code d a

theorem rowWord_toNat (o : BdmOp) (args : List Nat) :
    (rowWord o args).toNat = o.code.toNat * 2 ^ (o.format.txBits - 8) + packFields o.format.fields args 0 := by
  obtain ⟨h8, hnt, -⟩ := format_txBits_bounds o.format
  exact txWordOf_toNat h8 hnt (packFields_row_lt o args)

/-- A byte sequence read most significant byte first (R60). -/
def bytesValue (bs : List Byte) : Nat := bs.foldl (fun n b => n * 256 + b.toNat) 0

theorem packFields_one (k v : Nat) : packFields [k] [v] 0 = v % 2 ^ k := by simp [packFields]

theorem packFields_two (k l v w : Nat) : packFields [k, l] [v, w] 0 = v % 2 ^ k * 2 ^ l + w % 2 ^ l := by simp [packFields]

theorem bytesValue_opcode (c : Byte) : bytesValue [c] = c.toNat * 2 ^ 0 + packFields [] [] 0 := by
  simp [bytesValue, packFields]

theorem bytesValue_byte (c d : Byte) : bytesValue [c, d] = c.toNat * 2 ^ 8 + packFields [8] [d.toNat] 0 := by
  rw [packFields_one, Nat.mod_eq_of_lt d.isLt]
  simp [bytesValue]

theorem bytesValue_half (c : Byte) (v : Half) :
    bytesValue (c :: halfBytes v) = c.toNat * 2 ^ 16 + packFields [16] [v.toNat] 0 := by
  have hbytes : bytesValue (c :: halfBytes v) =
      (c.toNat * 256 + (v.extractLsb' 8 8).toNat) * 256 + (v.extractLsb' 0 8).toNat := by
    simp [bytesValue, halfBytes]
  rw [packFields_one, Nat.mod_eq_of_lt v.isLt, hbytes, ← halfBytes_weight v]
  omega

theorem bytesValue_halfByte (c d : Byte) (a : Half) :
    bytesValue (c :: (halfBytes a ++ [d])) = c.toNat * 2 ^ 24 + packFields [16, 8] [a.toNat, d.toNat] 0 := by
  have hbytes : bytesValue (c :: (halfBytes a ++ [d])) = bytesValue (c :: halfBytes a) * 256 + d.toNat := by
    simp [bytesValue]
  rw [hbytes, bytesValue_half, packFields_one, packFields_two, Nat.mod_eq_of_lt a.isLt, Nat.mod_eq_of_lt d.isLt]
  omega

/-- The packed parameters are the parameter bytes read most significant first, behind the opcode (R91, R96). -/
theorem bytesValue_encode {i : Instr} {o : BdmOp} (h : i.bdmOp = some o) :
    bytesValue (encode i) = o.code.toNat * 2 ^ (o.format.txBits - 8) + packFields o.format.fields (argsOf i) 0 := by
  rw [encode_bdm h]
  cases i <;> cases h <;>
    simp only [Instr.bdmParams, argsOf, BdmOp.format, BdmFormat.fields, BdmFormat.txBits, bytesValue_opcode,
      bytesValue_byte, bytesValue_half, bytesValue_halfByte, Nat.reduceSub]

theorem rowWord_argsOf_toNat {i : Instr} {o : BdmOp} (h : i.bdmOp = some o) :
    (rowWord o (argsOf i)).toNat = (encode i).foldl (fun n b => n * 256 + b.toNat) 0 :=
  (rowWord_toNat o (argsOf i)).trans (bytesValue_encode h).symm

theorem encode_bits {i : Instr} {o : BdmOp} (h : i.bdmOp = some o) : 8 * (encode i).length = o.format.txBits := by
  rw [encode_bdm h, List.length_cons, bdmParams_length h]
  cases o <;> rfl

/-! What a row's answer makes of the state -/

/-- Masking to the receive bit count loses nothing the unpacking reads (R146, R183). -/
@[simp] theorem unpack_received (o : BdmOp) (w : Word) :
    unpack o (receivedOf (BitVec.ofNat 6 o.format.rxBits) w) = unpack o w := by
  cases o <;> simp [unpack, unpackingOf, BdmOp.format, BdmFormat.rxBits]

theorem clearsClock_iff (o : BdmOp) : clearsClock o = true ↔ o = .go ∨ o = .taggo := by simp [clearsClock]

/-- The post-effect CLK of a row (R181). -/
def postClock (o : BdmOp) (s : State) : State := if clearsClock o then s.clearClock else s

theorem postClock_keep {o : BdmOp} (h : clearsClock o = false) (s : State) : postClock o s = s := by simp [postClock, h]

theorem postClock_eq (o : BdmOp) (s : State) :
    postClock o s = if o = .go ∨ o = .taggo then s.clearClock else s := by simp [postClock, ← clearsClock_iff]

/-- The post-effect touches one flag. -/
theorem postClock_eng (o : BdmOp) (s : State) :
    (postClock o s).eng = { s.eng with clockKnown := s.eng.clockKnown && !clearsClock o } := by
  cases h : clearsClock o <;> simp [postClock, h]

@[simp] theorem postClock_claimed (o : BdmOp) (s : State) : (postClock o s).eng.claimed = s.eng.claimed := by
  rw [postClock_eng]
@[simp] theorem postClock_progLoaded (o : BdmOp) (s : State) : (postClock o s).eng.progLoaded = s.eng.progLoaded := by
  rw [postClock_eng]
@[simp] theorem postClock_clockKnown (o : BdmOp) (s : State) :
    (postClock o s).eng.clockKnown = (s.eng.clockKnown && !clearsClock o) := by rw [postClock_eng]
@[simp] theorem postClock_fPio (o : BdmOp) (s : State) : (postClock o s).eng.fPio = s.eng.fPio := by rw [postClock_eng]
@[simp] theorem postClock_syncTicks (o : BdmOp) (s : State) : (postClock o s).eng.syncTicks = s.eng.syncTicks := by
  rw [postClock_eng]
@[simp] theorem postClock_we (o : BdmOp) (s : State) : (postClock o s).we = s.we := by
  cases h : clearsClock o <;> simp [postClock, h]
@[simp] theorem postClock_io (o : BdmOp) (s : State) : (postClock o s).io = s.io := by
  cases h : clearsClock o <;> simp [postClock, h]

/-- The row of `o` from a state `s` whose clock is known, `a` being the WE's answer to its shift: the next state and the
result (R145, R180, R183). -/
def rowOutcome (o : BdmOp) (args : List Nat) (s : State) : WeAnswer → State × Reply EngineResult
  | .done w =>
    (postClock o (knownShift (rowWord o args) o.format.txBits o.format.rxBits (.done w) s), .ok (unpack o w))
  | .timeout => (knownShift (rowWord o args) o.format.txBits o.format.rxBits .timeout s, .err .bkgdTimeout)

theorem bdmRun_known {s : State} (hk : s.eng.clockKnown = true) (o : BdmOp) (args : List Nat) :
    bdmRun o args s = rowOutcome o args s s.nextAnswer := by
  rw [bdmRun, transact_known hk]
  cases s.nextAnswer <;> simp [shiftReply, rowOutcome, postClock, rowWord]

theorem bdmRun_unknown_ok {s : State} (hk : s.eng.clockKnown = false) {v : Word} {f : Rat} (hv : s.nextAnswer = .done v)
    (hf : tickFrequency v = some f) (o : BdmOp) (args : List Nat) :
    bdmRun o args s = rowOutcome o args (afterMeasure v f s) s.popAnswer.nextAnswer := by
  rw [bdmRun, transact_unknown_ok hk hv hf]
  cases s.popAnswer.nextAnswer <;> simp [shiftReply, rowOutcome, postClock, rowWord]

theorem bdmRun_unknown_err {s : State} (hk : s.eng.clockKnown = false) (ha : syncOutcome s.nextAnswer = none)
    (o : BdmOp) (args : List Nat) : bdmRun o args s = (afterSyncFailure s, .err .syncTimeout) := by
  rw [bdmRun, transact_unknown_err hk ha]

/-- Everything a BDM command can do: a row from the state at the start or after its implicit synchronize, or a synchronize
that failed (R140). -/
theorem bdmRun_outcomes (o : BdmOp) (args : List Nat) (s : State) :
    (s.eng.clockKnown = true ∧ bdmRun o args s = rowOutcome o args s s.nextAnswer) ∨
      (∃ v f, s.eng.clockKnown = false ∧ s.nextAnswer = .done v ∧ tickFrequency v = some f ∧
        bdmRun o args s = rowOutcome o args (afterMeasure v f s) s.popAnswer.nextAnswer) ∨
      (s.eng.clockKnown = false ∧ syncOutcome s.nextAnswer = none ∧
        bdmRun o args s = (afterSyncFailure s, .err .syncTimeout)) := by
  cases hk : s.eng.clockKnown with
  | true => exact .inl ⟨rfl, bdmRun_known hk o args⟩
  | false =>
    cases ha : syncOutcome s.nextAnswer with
    | none => exact .inr (.inr ⟨rfl, rfl, bdmRun_unknown_err hk ha o args⟩)
    | some p =>
      obtain ⟨hv, hf⟩ := syncOutcome_some (w := p.1) (f := p.2) ha
      exact .inr (.inl ⟨p.1, p.2, rfl, hv, hf, bdmRun_unknown_ok hk hv hf o args⟩)

/-- Whatever a row does, its last request is its WE_SHIFT. -/
theorem rowOutcome_trace (o : BdmOp) (args : List Nat) (s : State) (a : WeAnswer) :
    (rowOutcome o args s a).1.io.trace =
      s.io.trace ++ claimEvents s ++ loadEvents s ++ shiftEvents (rowWord o args) o.format.txBits o.format.rxBits a := by
  cases a <;> simp [rowOutcome]

/-- Settles O24: with the implicit synchronize not refused, `bdmRun` ends with a row, whose last request is its shift. -/
theorem shiftCarriesEncoding : Obligations.ShiftCarriesEncoding := by
  intro i o s t hb ht hsync
  rw [exec_bdm hb] at ht
  cases ht
  have hshift : ∃ u a, bdmRun o (argsOf i) s = rowOutcome o (argsOf i) u a := by
    rcases bdmRun_outcomes o (argsOf i) s with ⟨_, h⟩ | ⟨v, f, _, _, _, h⟩ | ⟨hk, hnone, _⟩
    · exact ⟨_, _, h⟩
    · exact ⟨_, _, h⟩
    · simp [hk, hnone] at hsync
  obtain ⟨u, a, hrow⟩ := hshift
  refine ⟨u.io.trace ++ claimEvents u ++ loadEvents u, rowWord o (argsOf i), BitVec.ofNat 6 o.format.rxBits, a, ?_,
    rowWord_argsOf_toNat hb⟩
  rw [encode_bits hb, pushResult_io, hrow, rowOutcome_trace, shiftEvents]

/-- Settles O25: a row answered, from the state at the start or after the synchronize. -/
theorem bdmCommandCompletes : Obligations.BdmCommandCompletes := by
  intro i o s hb
  refine ⟨rowWord o (argsOf i), rowWord_argsOf_toNat hb, fun w hk ha => ?_, fun v w f hk hv hf ha => ?_⟩
  · simp only [exec_bdm hb, bdmRun_known hk, ha, rowOutcome, postClock_eq, unpack_received]
  · simp only [exec_bdm hb, bdmRun_unknown_ok hk hv hf, ha, rowOutcome, postClock_eq, unpack_received]

/-- Settles O26: a row timed out, from the state at the start or after the synchronize, and the refused synchronize. -/
theorem bdmCommandFails : Obligations.BdmCommandFails := by
  intro i o s hb
  refine ⟨rowWord o (argsOf i), rowWord_argsOf_toNat hb, fun hk ha => ?_, fun v f hk hv hf ha => ?_, fun hk ha => ?_⟩
  · rw [exec_bdm hb, bdmRun_known hk, ha, rowOutcome]
  · rw [exec_bdm hb, bdmRun_unknown_ok hk hv hf, ha, rowOutcome]
  · rw [exec_bdm hb, bdmRun_unknown_err hk ha]

/-! On a warm engine -/

/-- A row on a warm engine, answered. -/
theorem bdmRun_warm {s : State} (h : Warm s) {w : Word} (ha : s.nextAnswer = .done w) (o : BdmOp) (args : List Nat) :
    bdmRun o args s =
      (postClock o (warmShift (rowWord o args) o.format.txBits o.format.rxBits w s), .ok (unpack o w)) := by
  rw [bdmRun_known h.clockKnown, ha, rowOutcome, knownShift_warm_done h]

/-- A BDM command on a warm engine, answered, `tx` being its transmit word (R180). -/
theorem exec_warm {i : Instr} (o : BdmOp) (hb : i.bdmOp = some o) {s : State} (h : Warm s) {w : Word}
    (ha : s.nextAnswer = .done w) {tx : Word} (htx : rowWord o (argsOf i) = tx) :
    exec i s =
      .next ((postClock o (warmShift tx o.format.txBits o.format.rxBits w s)).pushResult (.ok (unpack o w))) := by
  rw [exec_bdm hb, bdmRun_warm h ha, htx]

/-- Settles O20: the rows of format B0. -/
theorem opcodeOnlyCommandsComplete : Obligations.OpcodeOnlyCommandsComplete := by
  intro s w h ha
  exact ⟨exec_warm .ackEnable rfl h ha rfl, exec_warm .ackDisabled rfl h ha rfl,
    exec_warm .background rfl h ha rfl, exec_warm .trace1 rfl h ha rfl,
    exec_warm .go rfl h ha rfl, exec_warm .taggo rfl h ha rfl⟩

/-- Settles O21: the rows of formats B1 and B2. -/
theorem parameterlessReadsComplete : Obligations.ParameterlessReadsComplete := by
  intro s w h ha
  exact ⟨exec_warm .readA rfl h ha rfl, exec_warm .readCcr rfl h ha rfl, exec_warm .readPc rfl h ha rfl,
    exec_warm .readHx rfl h ha rfl, exec_warm .readSp rfl h ha rfl, exec_warm .readNext rfl h ha rfl,
    exec_warm .readNextWs rfl h ha rfl, exec_warm .readStatus rfl h ha rfl, exec_warm .readLast rfl h ha rfl,
    exec_warm .readBkpt rfl h ha rfl⟩

/-- Settles O22: the rows of formats B3 and B4, then those of format B5. -/
theorem registerWritesComplete : Obligations.RegisterWritesComplete := by
  intro s w d v h ha
  have hbyte {o : BdmOp} (hf : o.format.fields = [8]) (ht : o.format.txBits = 16) := rowWord_byte hf ht d
  have hhalf {o : BdmOp} (hf : o.format.fields = [16]) (ht : o.format.txBits = 24) := rowWord_half hf ht v
  exact ⟨exec_warm .writeA rfl h ha (hbyte rfl rfl), exec_warm .writeCcr rfl h ha (hbyte rfl rfl),
    exec_warm .writeNext rfl h ha (hbyte rfl rfl), exec_warm .writeNextWs rfl h ha (hbyte rfl rfl),
    exec_warm .writeControl rfl h ha (hbyte rfl rfl), exec_warm .writePc rfl h ha (hhalf rfl rfl),
    exec_warm .writeHx rfl h ha (hhalf rfl rfl), exec_warm .writeSp rfl h ha (hhalf rfl rfl),
    exec_warm .writeBkpt rfl h ha (hhalf rfl rfl)⟩

/-- Settles O23: the rows of formats B6 and B7, then those of B8 and B9. -/
theorem memoryByteCommandsComplete : Obligations.MemoryByteCommandsComplete := by
  intro s w a d h ha
  exact ⟨exec_warm .readByte rfl h ha (rowWord_half rfl rfl a),
    exec_warm .readByteWs rfl h ha (rowWord_half rfl rfl a),
    exec_warm .writeByte rfl h ha (rowWord_halfByte rfl rfl a d),
    exec_warm .writeByteWs rfl h ha (rowWord_halfByte rfl rfl a d)⟩

end Sys2Proof.Proofs
end

section
/-! PROOFS. The host commands that carry one BDM command (spec/42_dispatcher.md R245, R246, R250 to R257): each is `answer` on
a row of R181, from every state; a warm engine makes the row one shift. -/

namespace Sys2Proof.Proofs

open Sys2Proof.Machine Sys2Proof.Laws

/-! What a BDM command replies -/

/-- Everything a BDM command can reply (R145, R183, R327). -/
theorem bdmRun_reply (o : BdmOp) (args : List Nat) (s : State) :
    (∃ w, (bdmRun o args s).2 = .ok (unpack o w)) ∨ (bdmRun o args s).2 = .err .syncTimeout ∨
      (bdmRun o args s).2 = .err .bkgdTimeout := by
  have hrow (u : State) (a : WeAnswer) :
      (∃ w, (rowOutcome o args u a).2 = .ok (unpack o w)) ∨ (rowOutcome o args u a).2 = .err .syncTimeout ∨
        (rowOutcome o args u a).2 = .err .bkgdTimeout := by
    cases a with
    | done w => exact .inl ⟨w, rfl⟩
    | timeout => exact .inr (.inr rfl)
  rcases bdmRun_outcomes o args s with ⟨_, h⟩ | ⟨v, f, _, _, _, h⟩ | ⟨_, _, h⟩ <;> rw [h]
  · exact hrow s _
  · exact hrow _ _
  · exact .inr (.inl rfl)

/-! A response in place of the caller's result -/

/-- Taking back the result pushed to the caller. -/
theorem pushResult_takenBack {s t : State} (h : t.io.results = s.io.results) (r : Reply EngineResult) :
    ({ t.pushResult r with io := { (t.pushResult r).io with results := s.io.results } } : State) = t := by
  rw [← h]
  rfl

/-- A host command that is `answer` on a BDM command carries it, where the two payloads agree on what the command returns. -/
theorem carriesBdm_of_answer {host bdm : Instr} {o : BdmOp} (hb : bdm.bdmOp = some o) {n : Nat}
    {p payload : EngineResult → List Byte} {s : State}
    (hhost : exec host s = .next (answer n p (bdmRun o (argsOf bdm) s)))
    (hp : ∀ w, p (unpack o w) = payload (unpack o w)) : CarriesBdm host bdm n payload s := by
  have hresults := (engineFrame_bdmRun o (argsOf bdm) s).results
  refine ⟨_, (bdmRun o (argsOf bdm) s).2, exec_bdm hb s, by simp [hresults], ?_⟩
  rw [hhost, pushResult_takenBack hresults, answer]
  rcases bdmRun_reply o (argsOf bdm) s with ⟨w, h⟩ | h | h <;> simp only [h, hp]

/-- The same host command on a warm engine, answered, `tx` being the transmit word of its row. -/
theorem exec_answer_warm {host bdm : Instr} (o : BdmOp) {n : Nat} {p : EngineResult → List Byte} {s : State}
    (hhost : exec host s = .next (answer n p (bdmRun o (argsOf bdm) s))) (h : Warm s) {w : Word}
    (ha : s.nextAnswer = .done w) {tx : Word} (htx : rowWord o (argsOf bdm) = tx) {bytes : List Byte}
    (hbytes : p (unpack o w) = bytes) :
    exec host s = .next ((postClock o (warmShift tx o.format.txBits o.format.rxBits w s)).respond .ok bytes) := by
  rw [hhost, bdmRun_warm h ha, htx, answer_ok, hbytes]

/-! The four-byte payload of a read -/

theorem setWidth_high (b : Byte) : (b.setWidth 16).extractLsb' 8 8 = 0 := by
  have hb := b.isLt
  apply BitVec.eq_of_toNat_eq
  rw [BitVec.extractLsb'_toNat, BitVec.toNat_setWidth, Nat.shiftRight_eq_div_pow]
  change b.toNat % 2 ^ 16 / 2 ^ 8 % 2 ^ 8 = 0
  omega

theorem setWidth_low (b : Byte) : (b.setWidth 16).extractLsb' 0 8 = b := by
  have hb := b.isLt
  apply BitVec.eq_of_toNat_eq
  rw [BitVec.extractLsb'_toNat, BitVec.toNat_setWidth, Nat.shiftRight_zero]
  omega

theorem payload4_data (b : Byte) : (EngineResult.data b).payload4 = [0x00, 0x00, 0x00, b] := by
  simp [EngineResult.payload4, EngineResult.toHalf, halfBytes, setWidth_high, setWidth_low]

theorem payload4_status (b : Byte) : (EngineResult.status b).payload4 = [0x00, 0x00, 0x00, b] := payload4_data b

theorem payload4_value (v : Half) :
    (EngineResult.value v).payload4 = [0x00, 0x00, v.extractLsb' 8 8, v.extractLsb' 0 8] := rfl

/-- The rows whose result fits a read's payload: all but the WS forms and those without a result. -/
def readsValue (o : BdmOp) : Bool := unpackingOf o = .data || unpackingOf o = .status || unpackingOf o = .value

theorem payload4_unpack {o : BdmOp} (h : readsValue o = true) (w : Word) :
    (unpack o w).payload4 = readPayload (unpack o w) := by
  rw [readsValue] at h
  rw [unpack]
  split <;> rename_i hu <;> simp [hu] at h
  · exact payload4_data _
  · exact payload4_status _
  · exact payload4_value _

/-- The two bytes of a 16-bit result are those of the completion word. -/
theorem payload4_low16 (w : Word) :
    (EngineResult.value (w.extractLsb' 0 16)).payload4 = [0x00, 0x00, w.extractLsb' 8 8, w.extractLsb' 0 8] := by
  have hhigh : (w.extractLsb' 0 16).extractLsb' 8 8 = w.extractLsb' 8 8 := by
    apply BitVec.eq_of_toNat_eq
    simp only [BitVec.extractLsb'_toNat, Nat.shiftRight_eq_div_pow]
    omega
  have hlow : (w.extractLsb' 0 16).extractLsb' 0 8 = w.extractLsb' 0 8 := by
    apply BitVec.eq_of_toNat_eq
    simp only [BitVec.extractLsb'_toNat, Nat.shiftRight_eq_div_pow]
    omega
  rw [payload4_value, hhigh, hlow]

/-! The two shapes of these commands -/

theorem outcome_commandOnly (o : BdmOp) (args : List Nat) (s : State) :
    Host.Outcome.next (φ := Fault) (ρ := Refusal) (commandOnly o args s) =
      .next (answer 0 (fun _ => []) (bdmRun o args s)) := by rw [commandOnly_eq]

theorem outcome_commandRead (o : BdmOp) (s : State) :
    Host.Outcome.next (φ := Fault) (ρ := Refusal) (commandRead o s) =
      .next (answer 4 EngineResult.payload4 (bdmRun o [] s)) := by rw [commandRead_eq]

/-! READ_STATUS_REG and READ_DREG -/

theorem exec_readStatusReg (s : State) :
    exec .readStatusReg s = .next (answer 4 EngineResult.payload4 (bdmRun .readStatus (argsOf .readStatus) s)) :=
  outcome_commandRead .readStatus s

theorem exec_readDreg (id : Half) (s : State) :
    exec (.readDreg id) s = .next (answer 4 EngineResult.payload4 (bdmRun .readBkpt (argsOf .readBkpt) s)) :=
  outcome_commandRead .readBkpt s

/-- Settles O33: both are `answer` on a row, whose four payload bytes are its result's low bits. -/
theorem statusAndBreakpointReadsComplete : Obligations.StatusAndBreakpointReadsComplete := by
  intro s id
  refine ⟨carriesBdm_of_answer rfl (exec_readStatusReg s) (payload4_unpack rfl),
    carriesBdm_of_answer rfl (exec_readDreg id s) (payload4_unpack rfl), fun w h ha => ?_⟩
  exact ⟨exec_answer_warm .readStatus (exec_readStatusReg s) h ha rfl (payload4_status _),
    exec_answer_warm .readBkpt (exec_readDreg id s) h ha rfl (payload4_low16 w)⟩

/-! WRITE_CONTROL_REG and WRITE_DREG -/

theorem exec_writeControlReg (v : Word) (s : State) :
    exec (.writeControlReg v) s =
      .next (answer 0 (fun _ => []) (bdmRun .writeControl (argsOf (.writeControl (v.extractLsb' 0 8))) s)) :=
  outcome_commandOnly .writeControl _ s

theorem exec_writeDreg (id : Half) (v : Word) (s : State) :
    exec (.writeDreg id v) s =
      .next (answer 0 (fun _ => []) (bdmRun .writeBkpt (argsOf (.writeBkpt (v.extractLsb' 0 16))) s)) :=
  outcome_commandOnly .writeBkpt _ s

/-- Settles O34: both are `answer` on a row whose argument is the value's low bits, with nothing after the status. -/
theorem controlAndBreakpointWritesComplete : Obligations.ControlAndBreakpointWritesComplete := by
  intro s v id
  refine ⟨carriesBdm_of_answer rfl (exec_writeControlReg v s) fun _ => rfl,
    carriesBdm_of_answer rfl (exec_writeDreg id v s) fun _ => rfl, fun w h ha => ?_⟩
  exact ⟨exec_answer_warm .writeControl (exec_writeControlReg v s) h ha (rowWord_byte rfl rfl _) rfl,
    exec_answer_warm .writeBkpt (exec_writeDreg id v s) h ha (rowWord_half rfl rfl _) rfl⟩

/-! TARGET_STEP, TARGET_GO and TARGET_HALT -/

theorem exec_targetStep (s : State) :
    exec .targetStep s = .next (answer 0 (fun _ => []) (bdmRun .trace1 (argsOf .trace1) s)) :=
  outcome_commandOnly .trace1 _ s

theorem exec_targetGo (s : State) : exec .targetGo s = .next (answer 0 (fun _ => []) (bdmRun .go (argsOf .go) s)) :=
  outcome_commandOnly .go _ s

theorem exec_targetHalt (s : State) :
    exec .targetHalt s = .next (answer 0 (fun _ => []) (bdmRun .background (argsOf .background) s)) :=
  outcome_commandOnly .background _ s

/-- Settles O35: each is `answer` on a row of format B0, with nothing after the status. -/
theorem executionControlCompletes : Obligations.ExecutionControlCompletes := by
  intro s
  refine ⟨carriesBdm_of_answer rfl (exec_targetStep s) fun _ => rfl,
    carriesBdm_of_answer rfl (exec_targetGo s) fun _ => rfl,
    carriesBdm_of_answer rfl (exec_targetHalt s) fun _ => rfl, fun w h ha => ?_⟩
  exact ⟨exec_answer_warm .trace1 (exec_targetStep s) h ha rfl rfl, exec_answer_warm .go (exec_targetGo s) h ha rfl rfl,
    exec_answer_warm .background (exec_targetHalt s) h ha rfl rfl⟩

/-! WRITE_REG and READ_REG -/

/-- The BDM instruction that writes the low bits of `v` to a target register (R255). -/
def regWrite (r : TargetReg) (v : Word) : Instr :=
  match r with
  | .pc => .writePc (v.extractLsb' 0 16)
  | .sp => .writeSp (v.extractLsb' 0 16)
  | .hx => .writeHx (v.extractLsb' 0 16)
  | .a => .writeA (v.extractLsb' 0 8)
  | .ccr => .writeCcr (v.extractLsb' 0 8)

theorem argsOf_regWrite (r : TargetReg) (v : Word) : argsOf (regWrite r v) = [v.toNat % 2 ^ r.width] := by
  cases r <;> simp [regWrite, argsOf, BitVec.extractLsb'_toNat, TargetReg.width]

theorem exec_writeReg {id : Half} {r : TargetReg} (h : regDecode id = .ok r) (v : Word) (s : State) :
    exec (.writeReg id v) s = .next (answer 0 (fun _ => []) (bdmRun r.writeOp (argsOf (regWrite r v)) s)) := by
  rw [argsOf_regWrite]
  refine Eq.trans ?_ (outcome_commandOnly r.writeOp _ s)
  exact congrArg Host.Outcome.next (show writeReg id v s = _ by simp only [writeReg, h])

theorem exec_readReg {id : Half} {r : TargetReg} (h : regDecode id = .ok r) (s : State) :
    exec (.readReg id) s = .next (answer 4 EngineResult.payload4 (bdmRun r.readOp [] s)) := by
  refine Eq.trans ?_ (outcome_commandRead r.readOp s)
  exact congrArg Host.Outcome.next (show readReg id s = _ by simp only [readReg, h])

theorem regDecode_pc : regDecode 0x000B = .ok .pc := rfl
theorem regDecode_sp : regDecode 0x000F = .ok .sp := rfl
theorem regDecode_hx : regDecode 0x000C = .ok .hx := rfl
theorem regDecode_a : regDecode 0x0008 = .ok .a := rfl
theorem regDecode_ccr : regDecode 0x0009 = .ok .ccr := rfl

/-- Settles O36: R255's table selects each id's write row; `regWrite` truncates the value to the row's field. -/
theorem writeRegCompletes : Obligations.WriteRegCompletes := by
  intro s v
  have hpc := exec_writeReg regDecode_pc v s
  have hsp := exec_writeReg regDecode_sp v s
  have hhx := exec_writeReg regDecode_hx v s
  have ha := exec_writeReg regDecode_a v s
  have hccr := exec_writeReg regDecode_ccr v s
  constructor
  · exact ⟨carriesBdm_of_answer rfl hpc fun _ => rfl, carriesBdm_of_answer rfl hsp fun _ => rfl,
      carriesBdm_of_answer rfl hhx fun _ => rfl, carriesBdm_of_answer rfl ha fun _ => rfl,
      carriesBdm_of_answer rfl hccr fun _ => rfl⟩
  · intro w hw hd
    exact ⟨exec_answer_warm .writePc hpc hw hd (rowWord_half rfl rfl _) rfl,
      exec_answer_warm .writeSp hsp hw hd (rowWord_half rfl rfl _) rfl,
      exec_answer_warm .writeHx hhx hw hd (rowWord_half rfl rfl _) rfl,
      exec_answer_warm .writeA ha hw hd (rowWord_byte rfl rfl _) rfl,
      exec_answer_warm .writeCcr hccr hw hd (rowWord_byte rfl rfl _) rfl⟩

/-- Settles O37: R255's table selects each id's read row; its result is extended into the four payload bytes. -/
theorem readRegCompletes : Obligations.ReadRegCompletes := by
  intro s
  have hpc := exec_readReg regDecode_pc s
  have hsp := exec_readReg regDecode_sp s
  have hhx := exec_readReg regDecode_hx s
  have ha := exec_readReg regDecode_a s
  have hccr := exec_readReg regDecode_ccr s
  constructor
  · exact ⟨carriesBdm_of_answer (bdm := .readPc) rfl hpc (payload4_unpack rfl),
      carriesBdm_of_answer (bdm := .readSp) rfl hsp (payload4_unpack rfl),
      carriesBdm_of_answer (bdm := .readHx) rfl hhx (payload4_unpack rfl),
      carriesBdm_of_answer (bdm := .readA) rfl ha (payload4_unpack rfl),
      carriesBdm_of_answer (bdm := .readCcr) rfl hccr (payload4_unpack rfl)⟩
  · intro w hw hd
    exact ⟨exec_answer_warm (bdm := .readPc) .readPc hpc hw hd rfl (payload4_low16 w),
      exec_answer_warm (bdm := .readSp) .readSp hsp hw hd rfl (payload4_low16 w),
      exec_answer_warm (bdm := .readHx) .readHx hhx hw hd rfl (payload4_low16 w),
      exec_answer_warm (bdm := .readA) .readA ha hw hd rfl (payload4_data _),
      exec_answer_warm (bdm := .readCcr) .readCcr hccr hw hd rfl (payload4_data _)⟩

end Sys2Proof.Proofs
end

section
/-! PROOFS. The value checks of the host commands (spec/60_exceptions.md R323 level 4, spec/42_dispatcher.md R248, R255, R260),
and the commands they refuse. -/

namespace Sys2Proof.Proofs

open Sys2Proof.Machine Sys2Proof.Laws

/-- Settles O45: the direction decides which of the two length checks is made. -/
theorem memoryChecksInOrder : Obligations.MemoryChecksInOrder := by
  intro dir mode n avail
  cases dir <;> simp [memChecks, memModeNormal, maxResponseSize]

/-! The statuses a check can answer -/

/-- The two statuses a value check answers (R311, R315). -/
def IsCheckStatus (S : Status) : Prop := S = .illegalParams ∨ S = .featureNotSupported

theorem memChecks_err {dir : MemDir} {mode : Byte} {n avail : Nat} {S : Status}
    (h : memChecks dir mode n avail = .err S) : IsCheckStatus S := by
  unfold memChecks at h
  split at h
  · cases h
    exact .inr rfl
  split at h
  · cases h
    exact .inl rfl
  split at h
  · cases h
    exact .inl rfl
  · cases h

theorem decodeReset_err {m : Byte} {S : Status} (h : decodeReset m = .err S) : IsCheckStatus S := by
  unfold decodeReset at h
  iterate 3
    split at h
    · cases h
      exact .inl rfl
  iterate 2
    split at h
    · cases h
      exact .inr rfl
  split at h <;> cases h

theorem regDecode_unknown {id : Half} (hpc : id ≠ 0x000B) (hsp : id ≠ 0x000F) (hhx : id ≠ 0x000C) (ha : id ≠ 0x0008)
    (hccr : id ≠ 0x0009) : regDecode id = .err .illegalParams := by
  rw [regDecode, if_neg hpc, if_neg hsp, if_neg hhx, if_neg ha, if_neg hccr]

theorem regDecode_err {id : Half} {S : Status} (h : regDecode id = .err S) : S = .illegalParams := by
  unfold regDecode at h
  iterate 5
    split at h
    · cases h
  cases h
  rfl

/-! The refused commands -/

theorem exec_writeReg_refused {id : Half} {S : Status} (h : regDecode id = .err S) (v : Word) (s : State) :
    exec (.writeReg id v) s = .next (s.respondErr S 0) :=
  congrArg Host.Outcome.next (show writeReg id v s = _ by simp only [writeReg, h])

theorem exec_readReg_refused {id : Half} {S : Status} (h : regDecode id = .err S) (s : State) :
    exec (.readReg id) s = .next (s.respondErr S 4) :=
  congrArg Host.Outcome.next (show readReg id s = _ by simp only [readReg, h])

theorem exec_targetReset_refused {m : Byte} {S : Status} (h : decodeReset m = .err S) (s : State) :
    exec (.targetReset m) s = .next (s.respondErr S 0) :=
  congrArg Host.Outcome.next (show targetResetWith Config.softResetSequence m s = _ by simp only [targetResetWith, h])

theorem exec_writeMem_refused {mode count : Byte} {addr : Half} {data : List Byte} {S : Status}
    (h : memChecks .write mode count.toNat data.length = .err S) (s : State) :
    exec (.writeMem mode count addr data) s = .next (s.respondErr S 0) :=
  congrArg Host.Outcome.next (show writeMem mode count addr data s = _ by simp only [writeMem, h])

theorem exec_readMem_refused {mode count : Byte} {addr : Half} {S : Status}
    (h : memChecks .read mode count.toNat 0 = .err S) (s : State) :
    exec (.readMem mode count addr) s = .next (s.respondErr S 0) :=
  congrArg Host.Outcome.next (show readMem mode count addr s = _ by simp only [readMem, h])

theorem checkOf_targetReset_err {m : Byte} {S : Status} (h : checkOf (.targetReset m) = .err S) :
    decodeReset m = .err S := by
  simp only [checkOf] at h
  split at h
  · cases h
  · next hd =>
    cases h
    exact hd

theorem checkOf_writeReg_err {id : Half} {v : Word} {S : Status} (h : checkOf (.writeReg id v) = .err S) :
    regDecode id = .err S := by
  simp only [checkOf] at h
  split at h
  · cases h
  · next hd =>
    cases h
    exact hd

theorem checkOf_readReg_err {id : Half} {S : Status} (h : checkOf (.readReg id) = .err S) : regDecode id = .err S :=
  checkOf_writeReg_err (v := 0) h

/-- A command its value checks refuse answers that check's status and does nothing else (R323, R325). -/
theorem exec_refused {i : Instr} {S : Status} (h : checkOf i = .err S) (s : State) :
    exec i s = .next (s.respondErr S (respPayloadLen i)) ∧ IsCheckStatus S := by
  cases i with
  | setOptions params =>
    simp only [checkOf] at h
    split at h
    · next hshort =>
      cases h
      exact ⟨congrArg _ (setOptionsOf_short hshort s), .inl rfl⟩
    · cases h
  | targetReset m =>
    have hd := checkOf_targetReset_err h
    exact ⟨exec_targetReset_refused hd s, decodeReset_err hd⟩
  | writeReg id v =>
    have hd := checkOf_writeReg_err h
    exact ⟨exec_writeReg_refused hd v s, .inl (regDecode_err hd)⟩
  | readReg id =>
    have hd := checkOf_readReg_err h
    exact ⟨exec_readReg_refused hd s, .inl (regDecode_err hd)⟩
  | writeMem mode count addr data => exact ⟨exec_writeMem_refused h s, memChecks_err h⟩
  | readMem mode count addr =>
    have hlen : respPayloadLen (.readMem mode count addr) = 0 := by simp [respPayloadLen, h]
    rw [hlen]
    exact ⟨exec_readMem_refused h s, memChecks_err h⟩
  | _ => cases h

/-- Settles O48: the refusals of all checks, and among them the ids outside R255's five. -/
theorem refusedCommandsOnlyAnswer : Obligations.RefusedCommandsOnlyAnswer := by
  refine ⟨fun i s S h => exec_refused h s, fun s id v hpc hsp hhx ha hccr => ?_⟩
  have hunknown := regDecode_unknown hpc hsp hhx ha hccr
  exact ⟨exec_writeReg_refused hunknown v s, exec_readReg_refused hunknown s⟩

end Sys2Proof.Proofs
end

section
/-! PROOFS. Sequences of BDM commands, run in order to the first failure: the one loop behind the software reset
(spec/42_dispatcher.md R249), WRITE_MEM (R258), READ_MEM (R259) and the statements' own `calledAll`, each tied to it here. -/

namespace Sys2Proof.Proofs

open Sys2Proof.Machine Sys2Proof.Laws

/-! The loop -/

/-- A reply with another value in place of its own. -/
def mapReply {α β : Type} (g : α → β) : Reply α → Reply β
  | .ok v => .ok (g v)
  | .err S => .err S

@[simp] theorem mapReply_ok {α β : Type} (g : α → β) (v : α) : mapReply g (.ok v) = .ok (g v) := rfl
@[simp] theorem mapReply_err {α β : Type} (g : α → β) (S : Status) : mapReply g (.err S) = .err S := rfl

theorem mapReply_mapReply {α β γ : Type} (g : α → β) (h : β → γ) (r : Reply α) :
    mapReply h (mapReply g r) = mapReply (fun v => h (g v)) r := by cases r <;> rfl

/-- The calls in order, ending at the first failure: the state after them, and their results or the failure's status. -/
def runCalls : List BdmCall → State → State × Reply (List EngineResult)
  | [], s => (s, .ok [])
  | c :: cs, s =>
    match bdmRun c.op c.args s with
    | (t, .err S) => (t, .err S)
    | (t, .ok v) => ((runCalls cs t).1, mapReply (v :: ·) (runCalls cs t).2)

@[simp] theorem runCalls_nil (s : State) : runCalls [] s = (s, .ok []) := rfl

theorem runCalls_cons_ok {c : BdmCall} {s t : State} {v : EngineResult} (h : bdmRun c.op c.args s = (t, .ok v))
    (cs : List BdmCall) : runCalls (c :: cs) s = ((runCalls cs t).1, mapReply (v :: ·) (runCalls cs t).2) := by
  simp only [runCalls, h]

theorem runCalls_cons_err {c : BdmCall} {s t : State} {S : Status} (h : bdmRun c.op c.args s = (t, .err S))
    (cs : List BdmCall) : runCalls (c :: cs) s = (t, .err S) := by
  simp only [runCalls, h]

/-- What no sequence touches. -/
theorem engineFrame_runCalls (cs : List BdmCall) (s : State) : EngineFrame s (runCalls cs s).1 := by
  induction cs generalizing s with
  | nil => exact engineFrame_refl s
  | cons c cs ih =>
    have hrow := engineFrame_bdmRun c.op c.args s
    rcases h : bdmRun c.op c.args s with ⟨t, v | S⟩ <;> rw [h] at hrow
    · rw [runCalls_cons_ok h]
      exact engineFrame_trans hrow (ih t)
    · rw [runCalls_cons_err h]
      exact hrow

/-- The two statuses a BDM command can fail with (R314). -/
def IsEngineStatus (S : Status) : Prop := S = .syncTimeout ∨ S = .bkgdTimeout

theorem bdmRun_err {o : BdmOp} {args : List Nat} {s : State} {S : Status} (h : (bdmRun o args s).2 = .err S) :
    IsEngineStatus S := by
  rcases bdmRun_reply o args s with ⟨w, hr⟩ | hr | hr <;> rw [h] at hr <;> cases hr
  · exact .inl rfl
  · exact .inr rfl

theorem runCalls_err {cs : List BdmCall} {s : State} {S : Status} (h : (runCalls cs s).2 = .err S) :
    IsEngineStatus S := by
  induction cs generalizing s with
  | nil => cases h
  | cons c cs ih =>
    rcases hc : bdmRun c.op c.args s with ⟨t, v | S'⟩
    · rw [runCalls_cons_ok hc] at h
      cases hr : (runCalls cs t).2 with
      | ok vs => simp [hr] at h
      | err S'' =>
        rw [hr, mapReply_err] at h
        cases h
        exact ih hr
    · rw [runCalls_cons_err hc] at h
      cases h
      exact bdmRun_err (congrArg Prod.snd hc)

theorem runCalls_setMemPos (cs : List BdmCall) (s : State) (i : Nat) (a : Half) :
    runCalls cs (s.setMemPos i a) = ((runCalls cs s).1.setMemPos i a, (runCalls cs s).2) := by
  induction cs generalizing s with
  | nil => rfl
  | cons c cs ih =>
    have hpos := bdmRun_setMemPos c.op c.args s i a
    rcases h : bdmRun c.op c.args s with ⟨t, v | S⟩ <;> rw [h] at hpos
    · rw [runCalls_cons_ok h, runCalls_cons_ok hpos, ih]
    · rw [runCalls_cons_err h, runCalls_cons_err hpos]

/-! The software reset -/

theorem softReset_eq (cs : List BdmCall) (s : State) :
    softReset cs s = ((runCalls cs s).1.clearClock, mapReply (fun _ => ()) (runCalls cs s).2) := by
  induction cs generalizing s with
  | nil => rfl
  | cons c cs ih =>
    rcases h : bdmRun c.op c.args s with ⟨t, v | S⟩
    · have hstep : softReset (c :: cs) s = softReset cs t := by simp only [softReset, bdmCmd_code, h]
      rw [hstep, ih, runCalls_cons_ok h, mapReply_mapReply]
    · have hstep : softReset (c :: cs) s = (t.clearClock, .err S) := by simp only [softReset, bdmCmd_code, h]
      rw [hstep, runCalls_cons_err h, mapReply_err]

/-! Calls as instructions -/

/-- A call's arguments cut to their fields pack to the same bits (R180). -/
theorem packFields_callInstr (c : BdmCall) :
    packFields c.op.format.fields (argsOf (callInstr c)) 0 = packFields c.op.format.fields c.args 0 := by
  obtain ⟨o, args⟩ := c
  rcases args with _ | ⟨x, _ | ⟨y, args⟩⟩ <;> cases o <;>
    simp [callInstr, argsOf, BdmOp.format, BdmFormat.fields, packFields]

theorem bdmOp_callInstr (c : BdmCall) : (callInstr c).bdmOp = some c.op := by
  obtain ⟨o, args⟩ := c
  cases o <;> rfl

theorem bdmRun_callInstr (c : BdmCall) (s : State) : bdmRun c.op (argsOf (callInstr c)) s = bdmRun c.op c.args s := by
  rw [bdmRun, bdmRun, packFields_callInstr]

theorem rowWord_callInstr (c : BdmCall) : rowWord c.op (argsOf (callInstr c)) = rowWord c.op c.args := by
  rw [rowWord, rowWord, packFields_callInstr]

theorem exec_callInstr (c : BdmCall) (s : State) :
    exec (callInstr c) s = .next ((bdmRun c.op c.args s).1.pushResult (bdmRun c.op c.args s).2) := by
  rw [exec_bdm (bdmOp_callInstr c), bdmRun_callInstr]

theorem called_callInstr (c : BdmCall) (s : State) : called (callInstr c) s = bdmRun c.op c.args s := by
  rw [called_bdm (bdmOp_callInstr c), bdmRun_callInstr]

theorem calledAll_callInstr (cs : List BdmCall) (s : State) : calledAll (cs.map callInstr) s = runCalls cs s := by
  induction cs generalizing s with
  | nil => rfl
  | cons c cs ih =>
    rw [List.map_cons]
    rcases h : bdmRun c.op c.args s with ⟨t, v | S⟩
    · rw [runCalls_cons_ok h, ← ih]
      simp only [calledAll, called_callInstr, h]
      cases calledAll (cs.map callInstr) t with
      | mk u r => cases r <;> rfl
    · rw [runCalls_cons_err h]
      simp only [calledAll, called_callInstr, h]

theorem shiftWord_callInstr (c : BdmCall) : shiftWord (callInstr c) = rowWord c.op c.args := by
  rw [shiftWord, ← rowWord_callInstr, ← rowWord_argsOf_toNat (bdmOp_callInstr c), BitVec.ofNat_toNat, BitVec.setWidth_eq]

theorem callEvents_eq (c : BdmCall) (a : WeAnswer) :
    callEvents c a = shiftEvents (rowWord c.op c.args) c.op.format.txBits c.op.format.rxBits a := by
  rw [callEvents, shiftWord_callInstr]

/-! The byte loops -/

theorem setMemPos_self (s : State) : s.setMemPos s.disp.memIndex.toNat s.disp.memAddr = s := by
  simp [State.setMemPos]

/-- WRITE_BYTE of one byte. -/
def writeCall (a : Half) (d : Byte) : BdmCall := ⟨.writeByte, [a.toNat, d.toNat]⟩

/-- READ_BYTE of one byte. -/
def readCall (a : Half) : BdmCall := ⟨.readByte, [a.toNat]⟩

@[simp] theorem callInstr_writeCall (a : Half) (d : Byte) : callInstr (writeCall a d) = .writeByte a d := by
  simp [writeCall, callInstr]

@[simp] theorem callInstr_readCall (a : Half) : callInstr (readCall a) = .readByte a := by simp [readCall, callInstr]

/-- The calls of WRITE_MEM: the bytes at ascending addresses modulo 2^16 (R64, R258). -/
def writeCalls (a : Half) (ds : List Byte) : List BdmCall :=
  (List.range ds.length).map fun k => writeCall (a + BitVec.ofNat 16 k) (ds.getD k 0)

/-- The calls of READ_MEM (R64, R259). -/
def readCalls (a : Half) (n : Nat) : List BdmCall := (List.range n).map fun k => readCall (a + BitVec.ofNat 16 k)

@[simp] theorem writeCalls_length (a : Half) (ds : List Byte) : (writeCalls a ds).length = ds.length := by
  simp [writeCalls]

@[simp] theorem readCalls_length (a : Half) (n : Nat) : (readCalls a n).length = n := by simp [readCalls]

/-- The next address after one step, and `k` more. -/
theorem address_succ (a : Half) (k : Nat) : a + BitVec.ofNat 16 (k + 1) = a + 1 + BitVec.ofNat 16 k := by
  have hone : (1 : Half).toNat = 1 := rfl
  apply BitVec.eq_of_toNat_eq
  simp only [BitVec.toNat_add, BitVec.toNat_ofNat, hone]
  omega

theorem writeCalls_cons (a : Half) (d : Byte) (ds : List Byte) :
    writeCalls a (d :: ds) = writeCall a d :: writeCalls (a + 1) ds := by
  rw [writeCalls, List.length_cons, List.range_succ_eq_map, List.map_cons, List.map_map, writeCalls]
  refine congrArg₂ _ (by simp) (List.map_congr_left fun k _ => ?_)
  rw [Function.comp_apply, address_succ, List.getD_cons_succ]

theorem readCalls_succ (a : Half) (n : Nat) : readCalls a (n + 1) = readCall a :: readCalls (a + 1) n := by
  rw [readCalls, List.range_succ_eq_map, List.map_cons, List.map_map, readCalls]
  refine congrArg₂ _ (by simp) (List.map_congr_left fun k _ => ?_)
  rw [Function.comp_apply, address_succ]

/-- WRITE_MEM's loop is its calls; only the position inside the command is its own. -/
theorem writeBytes_eq (ds : List Byte) (i : Nat) (a : Half) (s : State) :
    ∃ j b, writeBytes i a ds s =
      ((runCalls (writeCalls a ds) s).1.setMemPos j b, mapReply (fun _ => ()) (runCalls (writeCalls a ds) s).2) := by
  induction ds generalizing i a s with
  | nil => exact ⟨s.disp.memIndex.toNat, s.disp.memAddr, Prod.ext (setMemPos_self s).symm rfl⟩
  | cons d ds ih =>
    have hmem : memWrite a d (s.setMemPos i a) =
        ((bdmRun .writeByte [a.toNat, d.toNat] s).1.setMemPos i a, (bdmRun .writeByte [a.toNat, d.toNat] s).2) := by
      rw [memWrite_eq, bdmRun_setMemPos]
    rw [writeCalls_cons]
    rcases h : bdmRun .writeByte [a.toNat, d.toNat] s with ⟨t, v | S⟩ <;> rw [h] at hmem
    · have hstep : writeBytes i a (d :: ds) s = writeBytes (i + 1) (a + 1) ds (t.setMemPos i a) := by
        simp only [writeBytes, hmem]
      obtain ⟨j, b, hrest⟩ := ih (i + 1) (a + 1) (t.setMemPos i a)
      refine ⟨j, b, ?_⟩
      rw [hstep, hrest, runCalls_setMemPos, runCalls_cons_ok (c := writeCall a d) h, mapReply_mapReply]
      rfl
    · refine ⟨i, a, ?_⟩
      rw [runCalls_cons_err (c := writeCall a d) h]
      simp only [writeBytes, hmem, mapReply_err]

/-- What READ_BYTE returns is one byte of data (R206). -/
theorem bdmRun_readByte_ok {args : List Nat} {s t : State} {v : EngineResult}
    (h : bdmRun .readByte args s = (t, .ok v)) : ∃ b, v = .data b := by
  rcases bdmRun_reply .readByte args s with ⟨w, hr⟩ | hr | hr <;> rw [h] at hr <;> cases hr
  exact ⟨_, rfl⟩

/-- The byte READ_MEM takes from a result. -/
theorem toHalf_data_low (b : Byte) : (EngineResult.data b).toHalf.extractLsb' 0 8 = b := setWidth_low b

theorem dataBytes_cons_data (b : Byte) (rs : List EngineResult) : dataBytes (.data b :: rs) = b :: dataBytes rs := rfl

/-- READ_MEM's loop is its calls, their data behind the bytes it already has. -/
theorem readBytes_eq (n i : Nat) (a : Half) (got : List Byte) (s : State) :
    ∃ j b, readBytes n i a got s =
      ((runCalls (readCalls a n) s).1.setMemPos j b,
        mapReply (fun rs => got ++ dataBytes rs) (runCalls (readCalls a n) s).2) := by
  induction n generalizing i a got s with
  | zero =>
    refine ⟨s.disp.memIndex.toNat, s.disp.memAddr, Prod.ext (setMemPos_self s).symm ?_⟩
    simp [readCalls, dataBytes, readBytes_zero]
  | succ n ih =>
    have hmem : memRead a (s.setMemPos i a) =
        ((bdmRun .readByte [a.toNat] s).1.setMemPos i a, (bdmRun .readByte [a.toNat] s).2) := by
      rw [memRead_eq, bdmRun_setMemPos]
    rw [readCalls_succ]
    rcases h : bdmRun .readByte [a.toNat] s with ⟨t, v | S⟩ <;> rw [h] at hmem
    · obtain ⟨d, rfl⟩ := bdmRun_readByte_ok h
      have hstep : readBytes (n + 1) i a got s = readBytes n (i + 1) (a + 1) (got ++ [d]) (t.setMemPos i a) := by
        simp only [readBytes, hmem, toHalf_data_low]
      obtain ⟨j, b, hrest⟩ := ih (i + 1) (a + 1) (got ++ [d]) (t.setMemPos i a)
      refine ⟨j, b, ?_⟩
      rw [hstep, hrest, runCalls_setMemPos, runCalls_cons_ok (c := readCall a) h, mapReply_mapReply]
      simp only [dataBytes_cons_data, List.append_assoc, List.singleton_append]
      rfl
    · refine ⟨i, a, ?_⟩
      rw [runCalls_cons_err (c := readCall a) h]
      simp only [readBytes, hmem, mapReply_err]

/-! The three loops' commands -/

theorem answer_mapReply {α β : Type} (n : Nat) (payload : β → List Byte) (g : α → β) (t : State) (r : Reply α) :
    answer n payload (t, mapReply g r) = answer n (fun v => payload (g v)) (t, r) := by cases r <;> rfl

theorem answer_setMemPos {α : Type} (n : Nat) (payload : α → List Byte) (t : State) (r : Reply α) (j : Nat) (b : Half) :
    answer n payload (t.setMemPos j b, r) = (answer n payload (t, r)).setMemPos j b := by cases r <;> rfl

theorem exec_targetReset {m : Byte} {mode : ResetMode} (h : decodeReset m = .ok mode) (s : State) :
    exec (.targetReset m) s = .next (answer 0 (fun _ => []) (softReset (Config.softResetSequence mode) s)) :=
  congrArg Host.Outcome.next
    (show targetResetWith Config.softResetSequence m s = _ by simp only [targetResetWith, h])

/-- WRITE_MEM past its checks (R258). -/
theorem exec_writeMem {mode count : Byte} {data : List Byte}
    (h : memChecks .write mode count.toNat data.length = .ok ()) (addr : Half) (s : State) :
    ∃ j b, exec (.writeMem mode count addr data) s =
      .next ((answer 0 (fun _ => []) (runCalls (writeCalls addr (data.take count.toNat)) s)).setMemPos j b) := by
  obtain ⟨j, b, hloop⟩ := writeBytes_eq (data.take count.toNat) 0 addr s
  refine ⟨j, b, congrArg Host.Outcome.next (show writeMem mode count addr data s = _ from ?_)⟩
  simp only [writeMem, h, hloop, answer_mapReply, answer_setMemPos]

/-- READ_MEM past its checks (R259). -/
theorem exec_readMem {mode count : Byte} (h : memChecks .read mode count.toNat 0 = .ok ()) (addr : Half) (s : State) :
    ∃ j b, exec (.readMem mode count addr) s =
      .next ((answer count.toNat dataBytes (runCalls (readCalls addr count.toNat) s)).setMemPos j b) := by
  obtain ⟨j, b, hloop⟩ := readBytes_eq count.toNat 0 addr [] s
  refine ⟨j, b, congrArg Host.Outcome.next (show readMem mode count addr s = _ from ?_)⟩
  simp only [readMem, h, hloop, answer_mapReply, answer_setMemPos, List.nil_append, id_eq]

end Sys2Proof.Proofs
end

section
/-! PROOFS. What a sequence of BDM commands does when the waveform engine's answers are known: every shift answered, a shift
that times out, a synchronize that fails, and a waveform engine that obliges (spec/40_engine_core.md R140, R145, R327). -/

namespace Sys2Proof.Proofs

open Sys2Proof.Machine Sys2Proof.Laws

/-! Shifts from a state whose clock is known -/

/-- The WE port after shifts from a state whose clock is known (R141). -/
def knownPort (s : State) : WePort :=
  { program := if s.eng.progLoaded then s.we.program else some .txn
    divider := if s.eng.progLoaded then s.we.divider else clockDivider s.eng.fPio
    outstanding := none
    rxChannel := none }

/-- `t` is `u` after claim and load where they are missing and the shifts `events`, the answers `rest` still to come; the
last shift was answered (`live`) or timed out. -/
structure AfterShifts (live : Bool) (u t : State) (events : List WeEvent) (rest : List WeAnswer) : Prop where
  claimed : t.eng.claimed = true
  progLoaded : t.eng.progLoaded = live
  clockKnown : t.eng.clockKnown = live
  fPio : t.eng.fPio = u.eng.fPio
  syncTicks : t.eng.syncTicks = u.eng.syncTicks
  we : t.we = knownPort u
  trace : t.io.trace = u.io.trace ++ claimEvents u ++ loadEvents u ++ events
  answers : t.io.weAnswers = rest

theorem afterShifts_one (tx : Word) (nt nr : Nat) (a : WeAnswer) (u : State) :
    AfterShifts (a != .timeout) u (knownShift tx nt nr a u) (shiftEvents tx nt nr a) u.io.weAnswers.tail :=
  ⟨rfl, rfl, rfl, rfl, rfl, rfl, rfl, knownShift_weAnswers tx nt nr a u⟩

/-- After an answered shift nothing is missing, so more shifts add only themselves. -/
theorem afterShifts_trans {live : Bool} {u t x : State} {e₁ e₂ : List WeEvent} {r₁ r₂ : List WeAnswer}
    (h : AfterShifts true u t e₁ r₁) (k : AfterShifts live t x e₂ r₂) : AfterShifts live u x (e₁ ++ e₂) r₂ where
  claimed := k.claimed
  progLoaded := k.progLoaded
  clockKnown := k.clockKnown
  fPio := k.fPio.trans h.fPio
  syncTicks := k.syncTicks.trans h.syncTicks
  we := by
    rw [k.we, knownPort, h.progLoaded, h.we]
    rfl
  trace := by simp [k.trace, claimEvents, loadEvents, h.claimed, h.progLoaded, h.trace]
  answers := k.answers

/-- The shifts of a sequence, each with its answer. -/
def sentEvents (cs : List BdmCall) (ws : List Word) : List WeEvent :=
  (cs.zip ws).flatMap fun p => callEvents p.1 (.done p.2)

@[simp] theorem sentEvents_nil : sentEvents [] [] = [] := rfl

@[simp] theorem sentEvents_cons (c : BdmCall) (cs : List BdmCall) (w : Word) (ws : List Word) :
    sentEvents (c :: cs) (w :: ws) = callEvents c (.done w) ++ sentEvents cs ws := rfl

/-- No command of the sequence resumes the target (R187, R189). -/
def KeepsClock (cs : List BdmCall) : Prop := ∀ c ∈ cs, clearsClock c.op = false

/-- One call, its shift answered. -/
theorem bdmRun_answered {c : BdmCall} (hc : clearsClock c.op = false) {u : State} (hk : u.eng.clockKnown = true)
    {w : Word} {rest : List WeAnswer} (ha : u.io.weAnswers = .done w :: rest) :
    ∃ t, bdmRun c.op c.args u = (t, .ok (unpack c.op w)) ∧ AfterShifts true u t (callEvents c (.done w)) rest := by
  have hafter := afterShifts_one (rowWord c.op c.args) c.op.format.txBits c.op.format.rxBits (.done w) u
  rw [ha, List.tail_cons, ← callEvents_eq] at hafter
  refine ⟨_, ?_, hafter⟩
  rw [bdmRun_known hk, nextAnswer_cons ha, rowOutcome, postClock_keep hc]

/-- One call, its shift timed out. -/
theorem bdmRun_timedOut {u : State} (hk : u.eng.clockKnown = true) {rest : List WeAnswer}
    (ha : u.io.weAnswers = .timeout :: rest) (c : BdmCall) :
    ∃ t, bdmRun c.op c.args u = (t, .err .bkgdTimeout) ∧ AfterShifts false u t (callEvents c .timeout) rest := by
  have hafter := afterShifts_one (rowWord c.op c.args) c.op.format.txBits c.op.format.rxBits .timeout u
  rw [ha, List.tail_cons, ← callEvents_eq] at hafter
  refine ⟨_, ?_, hafter⟩
  rw [bdmRun_known hk, nextAnswer_cons ha, rowOutcome]

/-- Every shift answered. -/
theorem runCalls_answered {c : BdmCall} {cs : List BdmCall} (hkeep : KeepsClock (c :: cs)) {w : Word} {ws : List Word}
    (hlen : ws.length = cs.length) {u : State} (hk : u.eng.clockKnown = true) {rest : List WeAnswer}
    (ha : u.io.weAnswers = (w :: ws).map .done ++ rest) :
    (runCalls (c :: cs) u).2 = .ok (List.zipWith (fun c w => unpack c.op w) (c :: cs) (w :: ws)) ∧
      AfterShifts true u (runCalls (c :: cs) u).1 (sentEvents (c :: cs) (w :: ws)) rest := by
  induction cs generalizing c w ws u with
  | nil =>
    obtain rfl := List.eq_nil_of_length_eq_zero hlen
    obtain ⟨t, hrow, hafter⟩ := bdmRun_answered (hkeep c (by simp)) hk ha
    rw [runCalls_cons_ok hrow]
    exact ⟨rfl, by simpa using hafter⟩
  | cons d ds ih =>
    obtain ⟨w', ws', rfl⟩ := List.exists_cons_of_length_eq_add_one hlen
    obtain ⟨t, hrow, hafter⟩ := bdmRun_answered (hkeep c (by simp)) hk ha
    obtain ⟨hreply, hrest⟩ := ih (fun x hx => hkeep x (List.mem_cons_of_mem _ hx)) (Nat.succ.inj hlen)
      hafter.clockKnown hafter.answers
    rw [runCalls_cons_ok hrow, hreply]
    exact ⟨rfl, afterShifts_trans hafter hrest⟩

/-- Every shift answered up to one that times out: the rest is not sent. -/
theorem runCalls_timedOut {sent : List BdmCall} (hkeep : KeepsClock sent) {ws : List Word}
    (hlen : ws.length = sent.length) {u : State} (hk : u.eng.clockKnown = true) {rest : List WeAnswer}
    (ha : u.io.weAnswers = ws.map .done ++ .timeout :: rest) (c : BdmCall) (unsent : List BdmCall) :
    (runCalls (sent ++ c :: unsent) u).2 = .err .bkgdTimeout ∧
      AfterShifts false u (runCalls (sent ++ c :: unsent) u).1 (sentEvents sent ws ++ callEvents c .timeout) rest := by
  induction sent generalizing ws u with
  | nil =>
    obtain rfl := List.eq_nil_of_length_eq_zero hlen
    obtain ⟨t, hrow, hafter⟩ := bdmRun_timedOut hk ha c
    rw [List.nil_append, runCalls_cons_err hrow]
    exact ⟨rfl, hafter⟩
  | cons d ds ih =>
    obtain ⟨w, ws', rfl⟩ := List.exists_cons_of_length_eq_add_one hlen
    obtain ⟨t, hrow, hafter⟩ := bdmRun_answered (hkeep d (by simp)) hk ha
    obtain ⟨hreply, hrest⟩ := ih (fun x hx => hkeep x (List.mem_cons_of_mem _ hx)) (Nat.succ.inj hlen)
      hafter.clockKnown hafter.answers
    rw [List.cons_append, runCalls_cons_ok hrow, hreply, sentEvents_cons, List.append_assoc]
    exact ⟨rfl, afterShifts_trans hafter hrest⟩

/-! Shifts from any state -/

/-- A sequence that starts with an accepted implicit synchronize goes on as from the state after it (R140). -/
theorem runCalls_afterMeasure {s : State} (hk : s.eng.clockKnown = false) {v : Word} {f : Rat}
    (hv : s.nextAnswer = .done v) (hf : tickFrequency v = some f) (c : BdmCall) (cs : List BdmCall) :
    runCalls (c :: cs) s = runCalls (c :: cs) (afterMeasure v f s) := by
  have hrow : bdmRun c.op c.args s = bdmRun c.op c.args (afterMeasure v f s) := by
    rw [bdmRun_unknown_ok hk hv hf, bdmRun_known (s := afterMeasure v f s) rfl, nextAnswer_afterMeasure]
  simp only [runCalls, hrow]

/-- A sequence whose first synchronize fails sends nothing (R327). -/
theorem runCalls_syncFailure {s : State} (hk : s.eng.clockKnown = false) (ha : syncOutcome s.nextAnswer = none)
    (c : BdmCall) (cs : List BdmCall) : runCalls (c :: cs) s = (afterSyncFailure s, .err .syncTimeout) :=
  runCalls_cons_err (bdmRun_unknown_err hk ha c.op c.args) cs

/-- A state whose clock is known and from which a sequence goes on as it does from `s`. -/
structure ShiftStart (s : State) (pre : List WeEvent) (f : Rat) (ticks : Half) (answers : List WeAnswer) (u : State) :
    Prop where
  known : u.eng.clockKnown = true
  answers : u.io.weAnswers = answers
  fPio : u.eng.fPio = f
  syncTicks : u.eng.syncTicks = ticks
  trace : u.io.trace ++ claimEvents u ++ loadEvents u = s.io.trace ++ pre
  port : knownPort u = shiftPort s f
  same : ∀ c cs, runCalls (c :: cs) s = runCalls (c :: cs) u

theorem reachesShift_start {s : State} {pre : List WeEvent} {f : Rat} {ticks : Half} {answers : List WeAnswer}
    (h : ReachesShift s pre f ticks answers) : ∃ u, ShiftStart s pre f ticks answers u := by
  rcases h with ⟨hk, rfl, rfl, rfl, ha⟩ | ⟨hk, v, ha, hf, rfl, rfl⟩
  · refine ⟨s, hk, ha, rfl, rfl, List.append_assoc _ _ _, ?_, fun _ _ => rfl⟩
    simp [knownPort, shiftPort, hk]
  · refine ⟨afterMeasure v f s, rfl, by simp [ha], rfl, rfl, by simp, ?_,
      runCalls_afterMeasure hk (nextAnswer_cons ha) hf⟩
    simp [knownPort, shiftPort, hk]

/-! A waveform engine that obliges -/

theorem obliging_mono {m n : Nat} {s : State} (hmn : m ≤ n) (h : Obliging n s) : Obliging m s :=
  ⟨hmn.trans h.enough, h.valid⟩

/-- The next answer is an accepted count, and the others stand. -/
theorem obliging_next {n : Nat} {s : State} (h : Obliging (n + 1) s) :
    ∃ w f, s.nextAnswer = .done w ∧ tickFrequency w = some f ∧
      ∀ t : State, t.io.weAnswers = s.io.weAnswers.tail → Obliging n t := by
  cases ha : s.io.weAnswers with
  | nil => exact absurd h.enough (by simp [ha])
  | cons a rest =>
    obtain ⟨w, f, rfl, hf⟩ := h.valid a (by simp [ha])
    have henough := h.enough
    rw [ha, List.length_cons] at henough
    refine ⟨w, f, nextAnswer_cons ha, hf, fun t ht => ⟨?_, fun x hx => h.valid x ?_⟩⟩
    · rw [ht, List.tail_cons]
      omega
    · rw [ht, List.tail_cons] at hx
      rw [ha]
      exact List.mem_cons_of_mem _ hx

/-- How many answers a BDM command waits for. -/
def rowWaits (s : State) : Nat := if s.eng.clockKnown then 1 else 2

/-- A BDM command whose waits are obliged is OK. -/
theorem bdmRun_obliged {n : Nat} {s : State} (h : Obliging (n + rowWaits s) s) (o : BdmOp) (args : List Nat) :
    ∃ t v, bdmRun o args s = (t, .ok v) ∧ t.eng.clockKnown = !clearsClock o ∧ Obliging n t := by
  cases hk : s.eng.clockKnown with
  | true =>
    rw [rowWaits, hk, if_pos rfl] at h
    obtain ⟨w, -, ha, -, hrest⟩ := obliging_next h
    exact ⟨_, _, by rw [bdmRun_known hk, ha, rowOutcome], by simp, hrest _ (by simp)⟩
  | false =>
    rw [rowWaits, hk, if_neg (by simp)] at h
    obtain ⟨v, f, hv, hf, hpop⟩ := obliging_next h
    obtain ⟨w, -, ha, -, hrest⟩ := obliging_next (hpop s.popAnswer (popAnswer_io_weAnswers s))
    exact ⟨_, _, by rw [bdmRun_unknown_ok hk hv hf, ha, rowOutcome], by simp, hrest _ (by simp)⟩

/-- Two answers for each command are enough, whatever the commands do to the clock. -/
theorem runCalls_obliged (cs : List BdmCall) {s : State} (h : Obliging (2 * cs.length) s) :
    ∃ vs, (runCalls cs s).2 = .ok vs := by
  induction cs generalizing s with
  | nil => exact ⟨[], rfl⟩
  | cons c cs ih =>
    have hwaits : rowWaits s ≤ 2 := by
      rw [rowWaits]
      split <;> decide
    have henough : Obliging (2 * cs.length + rowWaits s) s :=
      obliging_mono (by rw [List.length_cons]; omega) h
    obtain ⟨t, v, hrow, -, hrest⟩ := bdmRun_obliged henough c.op c.args
    obtain ⟨vs, hvs⟩ := ih hrest
    exact ⟨v :: vs, by rw [runCalls_cons_ok hrow, hvs, mapReply_ok]⟩

/-- One answer for each command, and one for the synchronize of the first, where no command clears the clock. -/
theorem runCalls_obliged_of_keepsClock {cs : List BdmCall} (hkeep : KeepsClock cs) {s : State}
    (h : Obliging (cs.length + (rowWaits s - 1)) s) : ∃ vs, (runCalls cs s).2 = .ok vs := by
  induction cs generalizing s with
  | nil => exact ⟨[], rfl⟩
  | cons c cs ih =>
    have hwaits : 1 ≤ rowWaits s := by
      rw [rowWaits]
      split <;> decide
    have henough : Obliging (cs.length + rowWaits s) s := obliging_mono (by rw [List.length_cons]; omega) h
    obtain ⟨t, v, hrow, hclock, hrest⟩ := bdmRun_obliged henough c.op c.args
    have hknown : t.eng.clockKnown = true := by rw [hclock, hkeep c (by simp), Bool.not_false]
    obtain ⟨vs, hvs⟩ := ih (fun x hx => hkeep x (List.mem_cons_of_mem _ hx)) (s := t)
      (by rw [rowWaits, hknown]; exact hrest)
    exact ⟨v :: vs, by rw [runCalls_cons_ok hrow, hvs, mapReply_ok]⟩

end Sys2Proof.Proofs
end

section
/-! PROOFS. The software reset (spec/42_dispatcher.md R247 to R249) and the memory commands (R258, R259): the statements read
off `runCalls`. -/

namespace Sys2Proof.Proofs

open Sys2Proof.Machine Sys2Proof.Laws

/-! The software reset -/

theorem keepsClock_of_ne {cs : List BdmCall} (h : ∀ c ∈ cs, c.op ≠ .go ∧ c.op ≠ .taggo) : KeepsClock cs := by
  intro c hc
  obtain ⟨hgo, htaggo⟩ := h c hc
  simp [clearsClock, hgo, htaggo]

/-- Every shift of a reset on a warm engine answered. -/
theorem softReset_answered {sent : List BdmCall} (hkeep : KeepsClock sent) {ws : List Word}
    (hlen : ws.length = sent.length) {s : State} (hw : Warm s) {rest : List WeAnswer}
    (ha : s.io.weAnswers = ws.map .done ++ rest) :
    (softReset sent s).2 = .ok () ∧ (softReset sent s).1.io.weAnswers = rest ∧
      (softReset sent s).1.io.trace = s.io.trace ++ sentEvents sent ws := by
  rw [softReset_eq]
  cases sent with
  | nil =>
    obtain rfl := List.eq_nil_of_length_eq_zero hlen
    simpa using ha
  | cons c cs =>
    obtain ⟨w, ws', rfl⟩ := List.exists_cons_of_length_eq_add_one hlen
    obtain ⟨hreply, hafter⟩ := runCalls_answered hkeep (Nat.succ.inj hlen) hw.clockKnown ha
    refine ⟨by rw [hreply]; rfl, hafter.answers, ?_⟩
    simp [hafter.trace, claimEvents, loadEvents, hw.claimed, hw.progLoaded]

/-- A reset on a warm engine up to the shift that times out. -/
theorem softReset_timedOut {sent : List BdmCall} (hkeep : KeepsClock sent) {ws : List Word}
    (hlen : ws.length = sent.length) {s : State} (hw : Warm s) {rest : List WeAnswer} (c : BdmCall)
    (unsent : List BdmCall) (ha : s.io.weAnswers = ws.map .done ++ .timeout :: rest) :
    (softReset (sent ++ c :: unsent) s).2 = .err .bkgdTimeout ∧
      (softReset (sent ++ c :: unsent) s).1.io.weAnswers = rest ∧
      (softReset (sent ++ c :: unsent) s).1.io.trace = s.io.trace ++ sentEvents sent ws ++ callEvents c .timeout := by
  obtain ⟨hreply, hafter⟩ := runCalls_timedOut hkeep hlen hw.clockKnown ha c unsent
  rw [softReset_eq]
  refine ⟨by rw [hreply]; rfl, hafter.answers, ?_⟩
  simp [hafter.trace, claimEvents, loadEvents, hw.claimed, hw.progLoaded]

theorem softReset_reply (cs : List BdmCall) (s : State) :
    (softReset cs s).2 = .ok () ∨ (softReset cs s).2 = .err .syncTimeout ∨ (softReset cs s).2 = .err .bkgdTimeout := by
  rw [softReset_eq]
  cases h : (runCalls cs s).2 with
  | ok vs => exact .inl rfl
  | err S => exact .inr ((runCalls_err h).imp (congrArg _) (congrArg _))

/-- Settles O39: the loop's two equations; its outcome for every sequence; the two traces on a warm engine. -/
theorem softResetSendsSequence : Obligations.SoftResetSendsSequence := by
  refine ⟨softReset_nil, fun c cs s t r h => ⟨?_, ?_⟩, fun cs s => ⟨?_, softReset_reply cs s⟩,
    fun sent ws s rest hw hne hlen => ⟨softReset_answered (keepsClock_of_ne hne) hlen hw,
      softReset_timedOut (keepsClock_of_ne hne) hlen hw⟩⟩
  · rw [bdmCmd_code] at h
    rw [exec_callInstr, h]
  · simp only [softReset, h]
    cases r <;> rfl
  · rw [softReset_eq]
    rfl

/-- Settles O40: the reset byte selects its sequence, and two obliging answers a command make the sequence OK. -/
theorem targetResetCompletes : Obligations.TargetResetCompletes := by
  intro s m mode hm
  have hdecode : decodeReset m = .ok mode := by
    rcases hm with ⟨rfl, rfl⟩ | ⟨rfl, rfl⟩ <;> rfl
  constructor
  · intro t r h
    rw [exec_targetReset hdecode, h]
    cases r <;> rfl
  · intro hob
    obtain ⟨vs, hvs⟩ := runCalls_obliged _ hob
    have hframe := engineFrame_softReset (Config.softResetSequence mode) s
    have hok : softReset (Config.softResetSequence mode) s =
        ((runCalls (Config.softResetSequence mode) s).1.clearClock, .ok ()) := by rw [softReset_eq, hvs, mapReply_ok]
    rw [hok] at hframe
    refine ⟨_, exec_targetReset hdecode s, ?_⟩
    rw [hok, answer_ok]
    exact ⟨by simp [← hframe.responses, Status.code], rfl, hframe.cable, hframe.options,
      by simp [← hframe.disp, Status.code], hframe.results⟩

/-! The memory commands' requests -/

theorem keepsClock_writeCalls (a : Half) (ds : List Byte) : KeepsClock (writeCalls a ds) := by
  intro c hc
  obtain ⟨k, -, rfl⟩ := List.mem_map.mp hc
  rfl

theorem keepsClock_readCalls (a : Half) (n : Nat) : KeepsClock (readCalls a n) := by
  intro c hc
  obtain ⟨k, -, rfl⟩ := List.mem_map.mp hc
  rfl

theorem callEvents_writeCall (a : Half) (d : Byte) (x : WeAnswer) :
    callEvents (writeCall a d) x = shiftEvents ((0xC0 : Byte) ++ (a ++ d)) 32 0 x := by
  rw [callEvents_eq]
  exact congrArg (shiftEvents · 32 0 x) (rowWord_halfByte (o := .writeByte) rfl rfl a d)

theorem callEvents_readCall (a : Half) (x : WeAnswer) :
    callEvents (readCall a) x = shiftEvents (((0xE0 : Byte) ++ a).setWidth 32) 24 8 x := by
  rw [callEvents_eq]
  exact congrArg (shiftEvents · 24 8 x) (rowWord_half (o := .readByte) rfl rfl a)

/-- The events of calls given by their index. -/
theorem sentEvents_range (f : Nat → BdmCall) (ws : List Word) :
    sentEvents ((List.range ws.length).map f) ws =
      (List.range ws.length).flatMap fun k => callEvents (f k) (.done (ws.getD k 0)) := by
  have hzip : ((List.range ws.length).map f).zip ws = (List.range ws.length).map fun k => (f k, ws.getD k 0) := by
    refine List.ext_getElem (by simp) fun k _ hk => ?_
    rw [List.length_map, List.length_range] at hk
    simp [hk]
  rw [sentEvents, hzip, List.flatMap_map]

/-- Calls given by their index, split at one of them. -/
theorem map_range_split (f : Nat → BdmCall) {m n : Nat} (h : m < n) :
    ∃ unsent, (List.range n).map f = (List.range m).map f ++ f m :: unsent := by
  refine ⟨((List.range n).map f).drop (m + 1), ?_⟩
  have htake : (List.range m).map f = ((List.range n).map f).take m := by
    rw [← List.map_take, List.take_range, Nat.min_eq_left h.le]
  have hget : f m = ((List.range n).map f)[m]'(by simpa using h) := by simp
  rw [htake, hget, List.getElem_cons_drop, List.take_append_drop]

/-! What a memory command leaves, however it ends -/

/-- The state after a memory command that came to its shifts: the trace, the flags, the measurement they ran with, the WE
port and the frame, `live` telling whether the last shift was answered. -/
structure MemoryOutcome (live : Bool) (s t : State) (pre events : List WeEvent) (f : Rat) (ticks : Half)
    (rest : List WeAnswer) : Prop where
  trace : t.io.trace = s.io.trace ++ pre ++ events
  claimed : t.eng.claimed = true
  progLoaded : t.eng.progLoaded = live
  clockKnown : t.eng.clockKnown = live
  fPio : t.eng.fPio = f
  syncTicks : t.eng.syncTicks = ticks
  we : t.we = shiftPort s f
  frame : MemoryFrame s t
  answers : t.io.weAnswers = rest

/-- Responding and moving the position change nothing of an outcome. -/
theorem memoryOutcome_of_shifts {live : Bool} {s u x t : State} {pre events : List WeEvent} {f : Rat} {ticks : Half}
    {answers rest : List WeAnswer} (hstart : ShiftStart s pre f ticks answers u) (h : AfterShifts live u x events rest)
    (htrace : t.io.trace = x.io.trace) (heng : t.eng = x.eng) (hwe : t.we = x.we)
    (hans : t.io.weAnswers = x.io.weAnswers) (hframe : MemoryFrame s t) :
    MemoryOutcome live s t pre events f ticks rest where
  trace := by rw [htrace, h.trace, hstart.trace]
  claimed := by rw [heng, h.claimed]
  progLoaded := by rw [heng, h.progLoaded]
  clockKnown := by rw [heng, h.clockKnown]
  fPio := by rw [heng, h.fPio, hstart.fPio]
  syncTicks := by rw [heng, h.syncTicks, hstart.syncTicks]
  we := by rw [hwe, h.we, hstart.port]
  frame := hframe
  answers := by rw [hans, h.answers]

theorem memoryFrame_setMemPos {s t : State} (h : MemoryFrame s t) (j : Nat) (b : Half) :
    MemoryFrame s (t.setMemPos j b) :=
  ⟨h.cable, h.options, h.cmdFrame, h.inbox, h.power, h.results, h.seq⟩

/-- A memory command whose every byte is answered. -/
theorem memory_answered {s : State} {calls : List BdmCall} (hkeep : KeepsClock calls) {ws : List Word} (hne : ws ≠ [])
    (hlen : ws.length = calls.length) {pre : List WeEvent} {f : Rat} {ticks : Half} {rest : List WeAnswer}
    (h : ReachesShift s pre f ticks (ws.map .done ++ rest)) (n : Nat) (payload : List EngineResult → List Byte) (j : Nat)
    (b : Half) :
    ((answer n payload (runCalls calls s)).setMemPos j b).io.responses =
        s.io.responses ++ [0x00 :: payload (List.zipWith (fun c w => unpack c.op w) calls ws)] ∧
      MemoryOutcome true s ((answer n payload (runCalls calls s)).setMemPos j b) pre (sentEvents calls ws) f ticks rest := by
  obtain ⟨u, hu⟩ := reachesShift_start h
  obtain ⟨w, ws', rfl⟩ := List.exists_cons_of_ne_nil hne
  obtain ⟨c, cs, rfl⟩ := List.exists_cons_of_length_eq_add_one hlen.symm
  obtain ⟨hreply, hafter⟩ := runCalls_answered hkeep (Nat.succ.inj hlen) hu.known hu.answers
  have hloop := engineFrame_runCalls (c :: cs) s
  have hframe := memoryFrame_setMemPos (memoryFrame_respond (loopFrame_of_engine hloop) .ok
    (payload (List.zipWith (fun c w => unpack c.op w) (c :: cs) (w :: ws')))) j b
  rw [← hu.same c cs] at hreply hafter
  rw [answer, hreply]
  refine ⟨?_, memoryOutcome_of_shifts hu hafter rfl rfl rfl rfl hframe⟩
  rw [← hloop.responses]
  rfl

/-- A memory command one of whose bytes times out. -/
theorem memory_timedOut {s : State} {sent : List BdmCall} (hkeep : KeepsClock sent) {ws : List Word}
    (hlen : ws.length = sent.length) {pre : List WeEvent} {f : Rat} {ticks : Half} {rest : List WeAnswer}
    (h : ReachesShift s pre f ticks (ws.map .done ++ .timeout :: rest)) (c : BdmCall) (unsent : List BdmCall) (n : Nat)
    (payload : List EngineResult → List Byte) (j : Nat) (b : Half) :
    (∃ free : List Byte, free.length = n ∧
        ((answer n payload (runCalls (sent ++ c :: unsent) s)).setMemPos j b).io.responses =
          s.io.responses ++ [0x14 :: free]) ∧
      MemoryOutcome false s ((answer n payload (runCalls (sent ++ c :: unsent) s)).setMemPos j b) pre
        (sentEvents sent ws ++ callEvents c .timeout) f ticks rest := by
  obtain ⟨u, hu⟩ := reachesShift_start h
  obtain ⟨hreply, hafter⟩ := runCalls_timedOut hkeep hlen hu.known hu.answers c unsent
  have hsame : runCalls (sent ++ c :: unsent) s = runCalls (sent ++ c :: unsent) u := by
    cases sent <;> exact hu.same _ _
  have hloop := engineFrame_runCalls (sent ++ c :: unsent) s
  have hframe := memoryFrame_setMemPos (memoryFrame_respondErr (loopFrame_of_engine hloop) .bkgdTimeout n) j b
  rw [← hsame] at hreply hafter
  rw [answer, hreply]
  refine ⟨⟨_, freeBytes_length (runCalls (sent ++ c :: unsent) s).1 n, ?_⟩,
    memoryOutcome_of_shifts hu hafter rfl rfl rfl rfl hframe⟩
  rw [← hloop.responses]
  rfl

/-- A memory command whose first synchronize fails. -/
theorem memory_syncFailure {s : State} (hk : s.eng.clockKnown = false) (ha : syncOutcome s.nextAnswer = none)
    {calls : List BdmCall} (hne : calls ≠ []) (n : Nat) (payload : List EngineResult → List Byte) (j : Nat) (b : Half) :
    ∃ t, (answer n payload (runCalls calls s)).setMemPos j b = t ∧
      (∃ free : List Byte, free.length = n ∧ t.io.responses = s.io.responses ++ [0x15 :: free]) ∧
      t.io.trace = s.io.trace ++ syncEvents s s.nextAnswer ∧
      t.eng.progLoaded = false ∧ t.eng.clockKnown = false ∧ t.eng.claimed = true ∧ t.eng.fPio = s.eng.fPio ∧
      t.eng.syncTicks = s.eng.syncTicks ∧ MemoryFrame s t := by
  obtain ⟨c, cs, rfl⟩ := List.exists_cons_of_ne_nil hne
  have hloop := engineFrame_runCalls (c :: cs) s
  rw [runCalls_syncFailure hk ha] at hloop ⊢
  refine ⟨_, rfl, ⟨_, freeBytes_length (afterSyncFailure s) n, ?_⟩, rfl, rfl, rfl, rfl, rfl, rfl,
    memoryFrame_setMemPos (memoryFrame_respondErr (loopFrame_of_engine hloop) .syncTimeout n) j b⟩
  rw [← hloop.responses]
  rfl

/-- A memory command past its checks carries its calls (R105). -/
theorem carriesAll_of_answer {host : Instr} {calls : List BdmCall} {instrs : List Instr}
    (hcalls : calls.map callInstr = instrs) {n : Nat} {payload : List EngineResult → List Byte} {s : State}
    (h : ∃ j b, exec host s = .next ((answer n payload (runCalls calls s)).setMemPos j b)) :
    CarriesAll host instrs n payload s := by
  obtain ⟨j, b, hexec⟩ := h
  refine ⟨_, hexec, ?_⟩
  rw [← hcalls, calledAll_callInstr, answer]
  cases (runCalls calls s).2 <;> rfl

/-! WRITE_MEM -/

theorem memChecks_write {count : Byte} {data : List Byte} (h : data.length = count.toNat) :
    memChecks .write 0x00 count.toNat data.length = .ok () := by simp [memChecks, memModeNormal, h]

/-- WRITE_MEM with as many data bytes as it counts. -/
theorem exec_writeMem_full {count : Byte} {data : List Byte} (h : data.length = count.toNat) (addr : Half) (s : State) :
    ∃ j b, exec (.writeMem 0x00 count addr data) s =
      .next ((answer 0 (fun _ => []) (runCalls (writeCalls addr data) s)).setMemPos j b) := by
  have hexec := exec_writeMem (memChecks_write h) addr s
  rwa [List.take_of_length_le h.le] at hexec

theorem writeCalls_map_callInstr (addr : Half) (data : List Byte) :
    (writeCalls addr data).map callInstr =
      (List.range data.length).map fun k => .writeByte (addr + BitVec.ofNat 16 k) (data.getD k 0) := by
  simp [writeCalls, Function.comp_def]

/-- The requests of the first bytes of WRITE_MEM, answered. -/
theorem sentEvents_writeCalls (addr : Half) (data : List Byte) (ws : List Word) :
    sentEvents ((List.range ws.length).map fun k => writeCall (addr + BitVec.ofNat 16 k) (data.getD k 0)) ws =
      (List.range ws.length).flatMap fun k =>
        shiftEvents ((0xC0 : Byte) ++ ((addr + BitVec.ofNat 16 k) ++ data.getD k 0)) 32 0 (.done (ws.getD k 0)) := by
  simp only [sentEvents_range, callEvents_writeCall]

/-- Settles O41: the loop is `runCalls` of its WRITE_BYTEs, none of which clears the clock, so the first alone may load. -/
theorem writeMemCompletes : Obligations.WriteMemCompletes := by
  refine ⟨fun s addr data => rfl, fun s count addr data h => ?_, fun s count addr data ws rest pre f ticks h hws hne hr => ?_⟩
  · exact carriesAll_of_answer (writeCalls_map_callInstr addr data) (exec_writeMem_full h addr s)
  · obtain ⟨j, b, hexec⟩ := exec_writeMem_full h addr s
    have hlen : ws.length = (writeCalls addr data).length := by rw [writeCalls_length, hws, h]
    obtain ⟨hresp, hout⟩ := memory_answered (keepsClock_writeCalls addr data) hne hlen hr 0 (fun _ => []) j b
    have htrace := hout.trace
    rw [writeCalls, h, ← hws, sentEvents_writeCalls, hws, ← h] at htrace
    exact ⟨_, hexec, hresp, htrace, ⟨hout.claimed, hout.clockKnown, hout.progLoaded⟩, hout.fPio, hout.syncTicks, hout.we,
      hout.frame, hout.answers⟩

/-- Settles O42: the calls split at the byte that times out; a refused synchronize ends the first of them. -/
theorem writeMemStopsAtTimeout : Obligations.WriteMemStopsAtTimeout := by
  refine ⟨fun s count addr data ws rest pre f ticks h hws hr => ?_, fun s count addr data h hne hk ha => ?_⟩
  · obtain ⟨j, b, hexec⟩ := exec_writeMem_full h addr s
    obtain ⟨unsent, hsplit⟩ := map_range_split
      (fun k => writeCall (addr + BitVec.ofNat 16 k) (data.getD k 0)) (hws.trans_eq h.symm)
    obtain ⟨⟨free, hfree, hresp⟩, hout⟩ := memory_timedOut
      (sent := (List.range ws.length).map fun k => writeCall (addr + BitVec.ofNat 16 k) (data.getD k 0))
      (fun c hc => by obtain ⟨k, -, rfl⟩ := List.mem_map.mp hc; rfl) (by simp) hr
      (writeCall (addr + BitVec.ofNat 16 ws.length) (data.getD ws.length 0)) unsent 0 (fun _ => []) j b
    obtain rfl := List.eq_nil_of_length_eq_zero hfree
    rw [← hsplit] at hresp hout
    have htrace := hout.trace
    rw [sentEvents_writeCalls, callEvents_writeCall, ← List.append_assoc] at htrace
    exact ⟨_, hexec, hresp, htrace, hout.progLoaded, hout.clockKnown, hout.claimed, hout.fPio, hout.syncTicks, hout.we,
      hout.frame, hout.answers⟩
  · obtain ⟨j, b, hexec⟩ := exec_writeMem_full h addr s
    have hcalls : writeCalls addr data ≠ [] := by
      rwa [← List.length_pos_iff, writeCalls_length, List.length_pos_iff]
    obtain ⟨t, rfl, ⟨free, hfree, hresp⟩, hout⟩ := memory_syncFailure hk ha hcalls 0 (fun _ => []) j b
    obtain rfl := List.eq_nil_of_length_eq_zero hfree
    exact ⟨_, hexec, hresp, hout⟩

/-! READ_MEM -/

theorem memChecks_read {count : Byte} (h : count.toNat ≤ 253) : memChecks .read 0x00 count.toNat 0 = .ok () := by
  have hfits : ¬(maxResponseSize < 1 + count.toNat) := by
    rw [maxResponseSize]
    omega
  simp [memChecks, memModeNormal, hfits]

theorem readCalls_map_callInstr (addr : Half) (n : Nat) :
    (readCalls addr n).map callInstr = (List.range n).map fun k => .readByte (addr + BitVec.ofNat 16 k) := by
  simp [readCalls, Function.comp_def]

/-- The requests of the first bytes of READ_MEM, answered. -/
theorem sentEvents_readCalls (addr : Half) (ws : List Word) :
    sentEvents ((List.range ws.length).map fun k => readCall (addr + BitVec.ofNat 16 k)) ws =
      (List.range ws.length).flatMap fun k =>
        shiftEvents (((0xE0 : Byte) ++ (addr + BitVec.ofNat 16 k)).setWidth 32) 24 8 (.done (ws.getD k 0)) := by
  simp only [sentEvents_range, callEvents_readCall]

/-- The payload of READ_MEM is the low byte of each completion word (R259). -/
theorem dataBytes_readCalls (addr : Half) (ws : List Word) :
    dataBytes (List.zipWith (fun c w => unpack c.op w) (readCalls addr ws.length) ws) =
      ws.map fun w => w.extractLsb' 0 8 := by
  induction ws generalizing addr with
  | nil => rfl
  | cons w ws ih =>
    rw [List.length_cons, readCalls_succ, List.zipWith_cons_cons, List.map_cons, ← ih (addr + 1)]
    rfl

/-- Settles O43: the loop is `runCalls` of its READ_BYTEs, and the payload is read off their results. -/
theorem readMemCompletes : Obligations.ReadMemCompletes := by
  refine ⟨fun s addr => rfl, fun s count addr h => ?_, fun s count addr ws rest pre f ticks h hws hne hr => ?_⟩
  · exact carriesAll_of_answer (readCalls_map_callInstr addr count.toNat) (exec_readMem (memChecks_read h) addr s)
  · obtain ⟨j, b, hexec⟩ := exec_readMem (memChecks_read h) addr s
    rw [← hws] at hexec
    obtain ⟨hresp, hout⟩ := memory_answered (keepsClock_readCalls addr ws.length) hne (by simp) hr ws.length dataBytes j b
    have htrace := hout.trace
    rw [dataBytes_readCalls] at hresp
    rw [readCalls, sentEvents_readCalls] at htrace
    exact ⟨_, hexec, hresp, htrace, ⟨hout.claimed, hout.clockKnown, hout.progLoaded⟩, hout.fPio, hout.syncTicks, hout.we,
      hout.frame, hout.answers⟩

/-- Settles O44: as for WRITE_MEM, with `count` payload bytes of any value after the status. -/
theorem readMemStopsAtTimeout : Obligations.ReadMemStopsAtTimeout := by
  refine ⟨fun s count addr ws rest pre f ticks h hws hr => ?_, fun s count addr h hne hk ha => ?_⟩
  · obtain ⟨j, b, hexec⟩ := exec_readMem (memChecks_read h) addr s
    obtain ⟨unsent, hsplit⟩ := map_range_split (fun k => readCall (addr + BitVec.ofNat 16 k)) hws
    obtain ⟨⟨free, hfree, hresp⟩, hout⟩ := memory_timedOut (keepsClock_readCalls addr ws.length) (by simp) hr
      (readCall (addr + BitVec.ofNat 16 ws.length)) unsent count.toNat dataBytes j b
    rw [readCalls, ← hsplit] at hresp hout
    have htrace := hout.trace
    rw [sentEvents_readCalls, callEvents_readCall, ← List.append_assoc] at htrace
    exact ⟨_, free, hexec, hresp, hfree, htrace, hout.progLoaded, hout.clockKnown, hout.claimed, hout.fPio,
      hout.syncTicks, hout.we, hout.frame, hout.answers⟩
  · obtain ⟨j, b, hexec⟩ := exec_readMem (memChecks_read h) addr s
    have hpos : count.toNat ≠ 0 := fun h0 => hne (BitVec.eq_of_toNat_eq h0)
    have hcalls : readCalls addr count.toNat ≠ [] := by
      rw [← List.length_pos_iff, readCalls_length]
      omega
    obtain ⟨t, rfl, ⟨free, hfree, hresp⟩, hout⟩ := memory_syncFailure hk ha hcalls count.toNat dataBytes j b
    exact ⟨_, free, hexec, hresp, hfree, hout⟩

end Sys2Proof.Proofs
end

section
/-! PROOFS. What a step has before it (spec/42_dispatcher.md R230 to R233, R346): the request taken, decoded, run or answered. -/

namespace Sys2Proof.Proofs

open Sys2Proof.Machine Sys2Proof.Laws

/-! One step -/

theorem step_run {s t : State} {i : Instr} (h : fetch s = .run i t) : step s = exec i t := by simp only [step, h]

theorem step_settled {s t : State} (h : fetch s = .settled t) : step s = .next t := by simp only [step, h]

theorem step_fault {s : State} {f : Fault} (h : fetch s = .fault f) : step s = .fault f := by simp only [step, h]

theorem step_refused {s : State} {r : Refusal} (h : fetch s = .refused r) : step s = .refused r := by simp only [step, h]

theorem fetch_busy {s : State} (h : s.eng.seq ≠ .idle) : fetch s = .settled (sequencerStep s) := if_neg h

theorem step_busy {s : State} (h : s.eng.seq ≠ .idle) : step s = .next (sequencerStep s) := step_settled (fetch_busy h)

/-- `s` with only the requests `rest` still to come. -/
def withInbox (rest : List Input) (s : State) : State := { s with io := { s.io with inbox := rest } }

theorem fetch_waiting {s : State} (h : s.eng.seq = .idle) (hi : s.io.inbox = []) : fetch s = .settled s := by
  simp only [fetch, if_pos h, fetchIdle, hi]

theorem fetch_request {s : State} {inp : Input} {rest : List Input} (h : s.eng.seq = .idle)
    (hi : s.io.inbox = inp :: rest) : fetch s = fetchInput inp (withInbox rest s) := by
  have hpop : s.popInput = withInbox rest s := by simp [State.popInput, withInbox, hi]
  simp only [fetch, if_pos h, fetchIdle, hi, hpop]

/-! A request that is an instruction -/

theorem decodeFrame_of_decodeInput {bytes : List Byte} {i : Instr} (h : decodeInput (.frame bytes) = some i) :
    decodeFrame bytes = .ok i := by
  simp only [decodeInput] at h
  cases hd : decodeFrame bytes with
  | error e => simp [hd, Except.toOption] at h
  | ok j =>
    rw [hd] at h
    cases h
    rfl

theorem decodeBdm_of_decodeInput {bytes : List Byte} {i : Instr} (h : decodeInput (.bdm bytes) = some i) :
    ∃ rest, decodeBdm bytes = .ok (i, rest) := by
  simp only [decodeInput] at h
  cases hd : decodeBdm bytes with
  | error e => simp [hd, Except.toOption] at h
  | ok p =>
    rw [hd] at h
    cases h
    exact ⟨p.2, rfl⟩

theorem fetchInput_frame {bytes : List Byte} {i : Instr} (h : decodeFrame bytes = .ok i) (s : State) :
    fetchInput (.frame bytes) s = .run i (s.recordFrame bytes) := by simp only [fetchInput, h]

theorem fetchInput_bdm {bytes : List Byte} {i : Instr} {rest : List Byte} (h : decodeBdm bytes = .ok (i, rest))
    (s : State) : fetchInput (.bdm bytes) s = .run i s := by simp only [fetchInput, h]

/-- Settles O46: only a frame and a BDM word decode, and each is run on the state that has taken it. -/
theorem stepRunsDecodedInstruction : Obligations.StepRunsDecodedInstruction := by
  intro s inp rest i hidle hinbox hdecode
  have hfetch := fetch_request hidle hinbox
  cases inp with
  | frame bytes => exact step_run (hfetch.trans (fetchInput_frame (decodeFrame_of_decodeInput hdecode) _))
  | bdm bytes =>
    obtain ⟨more, hd⟩ := decodeBdm_of_decodeInput hdecode
    exact step_run (hfetch.trans (fetchInput_bdm hd _))
  | synchronize => cases hdecode
  | transaction op P nt nr => cases hdecode

/-! A request that is no instruction -/

theorem decodeFrame_wrongLength {sz : Byte} {p : List Byte} (h : p.length + 1 ≠ max sz.toNat 1) :
    decodeFrame (sz :: p) = .error .hostDutyBroken := if_pos h

theorem decodeFrame_badSize {sz : Byte} {p : List Byte} (hlen : p.length + 1 = max sz.toNat 1)
    (h : sz.toNat < 2 ∨ 254 < sz.toNat) : decodeFrame (sz :: p) = .error .badSize :=
  (if_neg (not_not.mpr hlen)).trans (if_pos h)

/-- A frame of the right length and a legal size, by its opcode byte and the number of its parameter bytes (R232, R233). -/
theorem decodeFrame_sized {sz op : Byte} {q : List Byte} (hlen : (op :: q).length + 1 = max sz.toNat 1) (h2 : 2 ≤ sz.toNat)
    (h254 : sz.toNat ≤ 254) :
    decodeFrame (sz :: op :: q) =
      match hostOpOf op with
      | none => .error (.unknownOpcode op)
      | some o => if q.length < o.minNp then .error (.shortParams o) else .ok (hostInstr o q) := by
  have hsize : ¬(sz.toNat < 2 ∨ maxCommandSize < sz.toNat) := by
    rw [maxCommandSize]
    omega
  exact (if_neg (not_not.mpr hlen)).trans ((if_neg hsize).trans rfl)

theorem decodeFrame_unknown {sz op : Byte} {q : List Byte} (hlen : (op :: q).length + 1 = max sz.toNat 1)
    (h2 : 2 ≤ sz.toNat) (h254 : sz.toNat ≤ 254) (h : hostOpOf op = none) :
    decodeFrame (sz :: op :: q) = .error (.unknownOpcode op) := by rw [decodeFrame_sized hlen h2 h254, h]

theorem decodeFrame_short {sz op : Byte} {q : List Byte} (hlen : (op :: q).length + 1 = max sz.toNat 1)
    (h2 : 2 ≤ sz.toNat) (h254 : sz.toNat ≤ 254) {o : HostOp} (h : hostOpOf op = some o) (hq : q.length < o.minNp) :
    decodeFrame (sz :: op :: q) = .error (.shortParams o) := by
  rw [decodeFrame_sized hlen h2 h254, h]
  exact if_pos hq

theorem fetchInput_frame_error {bytes : List Byte} {e : DecodeError} (h : decodeFrame bytes = .error e) (s : State) :
    fetchInput (.frame bytes) s = rejectFrame e (s.recordFrame bytes) := by simp only [fetchInput, h]

theorem fetchInput_bdm_error {bytes : List Byte} {e : DecodeError} (h : decodeBdm bytes = .error e) (s : State) :
    fetchInput (.bdm bytes) s = rejectBdm e s := by simp only [fetchInput, h]

/-- The opcode lookup knows no byte the membership test refuses (R182, R292). -/
theorem bdmOpOf_of_not_valid {b : Byte} (h : isValidBdmCommand b = false) : bdmOpOf b = none := by
  cases ho : bdmOpOf b with
  | none => rfl
  | some o =>
    rw [← bdmOpOf_some ho, isValidBdmCommand_code] at h
    cases h

theorem decodeBdm_unknown {b : Byte} (h : isValidBdmCommand b = false) (p : List Byte) :
    decodeBdm (b :: p) = .error (.unknownBdm b) := by simp only [decodeBdm, bdmOpOf_of_not_valid h]

theorem decodeBdm_truncated {o : BdmOp} {p : List Byte} (h : p.length < o.paramBytes) :
    decodeBdm (o.code :: p) = .error (.truncatedBdm o) := by
  rw [decodeBdm_cons (bdmOpOf_code o), if_pos h]

/-- Settles O47: each decoding error of a frame and of a BDM word, and what the fetch makes of it. -/
theorem malformedRequestsAnswered : Obligations.MalformedRequestsAnswered := by
  constructor
  · intro s sz p rest hidle hinbox
    have hfetch := fetch_request hidle hinbox
    refine ⟨fun hlen => ?_, fun hlen => ⟨fun hsize => ?_, fun h2 h254 op q hp => ?_⟩⟩
    · exact step_refused (hfetch.trans (fetchInput_frame_error (decodeFrame_wrongLength hlen) _))
    · exact step_settled (hfetch.trans (fetchInput_frame_error (decodeFrame_badSize hlen hsize) _))
    · subst hp
      refine ⟨fun hnone => ?_, fun o hsome hq => ?_⟩
      · exact step_settled (hfetch.trans (fetchInput_frame_error (decodeFrame_unknown hlen h2 h254 hnone) _))
      · exact step_settled (hfetch.trans (fetchInput_frame_error (decodeFrame_short hlen h2 h254 hsome hq) _))
  · intro s b p rest hidle hinbox
    have hfetch := fetch_request hidle hinbox
    refine ⟨fun hinvalid => ?_, fun o ho hp => ?_⟩
    · exact step_settled (hfetch.trans (fetchInput_bdm_error (decodeBdm_unknown hinvalid p) _))
    · subst ho
      exact step_refused (hfetch.trans (fetchInput_bdm_error (decodeBdm_truncated hp) _))

end Sys2Proof.Proofs
end

section
/-! PROOFS. The host commands by what they ask of the engine (spec/42_dispatcher.md R230 to R260): nothing, a synchronize, or a
sequence of BDM commands. One form for each, said once for every host command, and what follows for all of them. -/

namespace Sys2Proof.Proofs

open Sys2Proof.Machine Sys2Proof.Laws

/-! The BDM commands a host command carries -/

/-- The BDM command of a register command, if its id is known (R255). -/
def regCalls (id : Half) (call : TargetReg → BdmCall) : List BdmCall :=
  match regDecode id with
  | .ok r => [call r]
  | .err _ => []

theorem regCalls_ok {id : Half} {r : TargetReg} (h : regDecode id = .ok r) (call : TargetReg → BdmCall) :
    regCalls id call = [call r] := by simp only [regCalls, h]

theorem regCalls_length (id : Half) (call : TargetReg → BdmCall) : (regCalls id call).length ≤ 1 := by
  cases h : regDecode id <;> simp [regCalls, h]

/-- The BDM commands a host command carries, its checks passed (R245 to R259). -/
def callsOf : Instr → List BdmCall
  | .readStatusReg => [⟨.readStatus, []⟩]
  | .writeControlReg v => [⟨.writeControl, [(v.extractLsb' 0 8).toNat]⟩]
  | .targetReset m => resetSequenceOf m
  | .targetStep => [⟨.trace1, []⟩]
  | .targetGo => [⟨.go, []⟩]
  | .targetHalt => [⟨.background, []⟩]
  | .writeReg id v => regCalls id fun r => ⟨r.writeOp, argsOf (regWrite r v)⟩
  | .readReg id => regCalls id fun r => ⟨r.readOp, []⟩
  | .writeDreg _ v => [⟨.writeBkpt, [(v.extractLsb' 0 16).toNat]⟩]
  | .readDreg _ => [⟨.readBkpt, []⟩]
  | .writeMem _ count addr data => writeCalls addr (data.take count.toNat)
  | .readMem _ count addr => readCalls addr count.toNat
  | _ => []

theorem callsOf_writeMem_length (mode count : Byte) (addr : Half) (data : List Byte) :
    (callsOf (.writeMem mode count addr data)).length ≤ count.toNat :=
  calc (callsOf (.writeMem mode count addr data)).length = (data.take count.toNat).length := writeCalls_length _ _
    _ ≤ count.toNat := List.length_take_le _ _

theorem callsOf_readMem_length (mode count : Byte) (addr : Half) :
    (callsOf (.readMem mode count addr)).length = count.toNat := readCalls_length _ _

/-- The answers a host command needs: two for each command it carries, or one for each and one for the first synchronize. -/
theorem callsOf_answers (i : Instr) :
    2 * (callsOf i).length ≤ answersNeeded i ∨
      KeepsClock (callsOf i) ∧ (callsOf i).length + 1 ≤ answersNeeded i := by
  cases i with
  | writeMem mode count addr data =>
    exact .inr ⟨keepsClock_writeCalls _ _, Nat.succ_le_succ (callsOf_writeMem_length mode count addr data)⟩
  | readMem mode count addr =>
    exact .inr ⟨keepsClock_readCalls _ _, Nat.succ_le_succ (callsOf_readMem_length mode count addr).le⟩
  | writeReg id v => exact .inl (Nat.mul_le_mul_left 2 (regCalls_length id _))
  | readReg id => exact .inl (Nat.mul_le_mul_left 2 (regCalls_length id _))
  | targetReset m => exact .inl le_rfl
  | _ => exact .inl (Nat.le_of_ble_eq_true rfl)

/-- The bound of a reset sequence that resumes the target, and of one that does not (R382). -/
theorem requestBound_targetReset (m : Byte) :
    requestBound (.targetReset m) =
      if (resetSequenceOf m).any (fun c => clearsClock c.op) then 1 + 4 * (resetSequenceOf m).length
      else 4 + (resetSequenceOf m).length := rfl

/-- The requests a host command may issue: a claim and four for each command it carries, or one for each and four for the
first. -/
theorem callsOf_requests (i : Instr) :
    1 + 4 * (callsOf i).length ≤ requestBound i ∨
      KeepsClock (callsOf i) ∧ 4 + (callsOf i).length ≤ requestBound i := by
  cases i with
  | writeMem mode count addr data =>
    exact .inr ⟨keepsClock_writeCalls _ _, Nat.add_le_add_left (callsOf_writeMem_length mode count addr data) 4⟩
  | readMem mode count addr =>
    exact .inr ⟨keepsClock_readCalls _ _, Nat.add_le_add_left (callsOf_readMem_length mode count addr).le 4⟩
  | writeReg id v => exact .inl (Nat.add_le_add_left (Nat.mul_le_mul_left 4 (regCalls_length id _)) 1)
  | readReg id => exact .inl (Nat.add_le_add_left (Nat.mul_le_mul_left 4 (regCalls_length id _)) 1)
  | targetReset m =>
    rw [requestBound_targetReset]
    cases hany : (resetSequenceOf m).any fun c => clearsClock c.op with
    | true => exact .inl le_rfl
    | false =>
      have hkeep : KeepsClock (resetSequenceOf m) := fun c hc => by simpa using List.any_eq_false.mp hany c hc
      exact .inr ⟨hkeep, le_rfl⟩
  | _ => exact .inl (Nat.le_of_ble_eq_true rfl)

/-! The forms of a host command -/

/-- What a host command without engine work writes before its response: at most the sync length, the speed mode and the
options, and the power sample it took. -/
structure ImmediateChange (i : Instr) (s t : State) : Prop where
  claimed : t.eng.claimed = s.eng.claimed
  progLoaded : t.eng.progLoaded = s.eng.progLoaded
  clockKnown : t.eng.clockKnown = s.eng.clockKnown
  fPio : t.eng.fPio = s.eng.fPio
  seq : t.eng.seq = s.eng.seq
  we : t.we = s.we
  disp : t.disp = s.disp
  inbox : t.io.inbox = s.io.inbox
  trace : t.io.trace = s.io.trace
  responses : t.io.responses = s.io.responses
  results : t.io.results = s.io.results
  targetType : t.cable.targetType = s.cable.targetType
  ackMode : t.cable.ackMode = s.cable.ackMode
  resetDetected : t.cable.resetDetected = s.cable.resetDetected
  speedMode : t.cable.speedMode = s.cable.speedMode ∨ (∃ h, i = .setSpeed h) ∧ t.cable.speedMode = .user
  options : t.options = s.options ∨ (∃ b, i = .setVdd b) ∨ ∃ p, i = .setOptions p
  optionsLength : s.options.length = optionsSize → t.options.length = optionsSize

theorem immediateChange_refl (i : Instr) (s : State) : ImmediateChange i s s :=
  ⟨rfl, rfl, rfl, rfl, rfl, rfl, rfl, rfl, rfl, rfl, rfl, rfl, rfl, rfl, .inl rfl, .inl rfl, id⟩

/-- What stands between the end of a command's BDM commands and its response: nothing, the end of a software reset (R249), or
the position inside a memory command (R27 (c)). -/
inductive Closing (t : State) : State → Prop
  | none : Closing t t
  | clearClock : Closing t t.clearClock
  | position (j : Nat) (b : Half) : Closing t (t.setMemPos j b)

/-- The next states of a host command. -/
inductive HostForm (i : Instr) (s : State) : State → Prop
  /-- Its value checks refuse it. -/
  | refused {S : Status} (h : checkOf i = .err S) : HostForm i s (s.respondErr S (respPayloadLen i))
  /-- It needs no engine operation. -/
  | immediate {t : State} {payload : List Byte} (hcheck : checkOf i = .ok ()) (h : ImmediateChange i s t)
      (hlen : payload.length = payloadLenOf i) : HostForm i s (t.respond .ok payload)
  /-- It is CONNECT. -/
  | connect (h : i = .connect) : HostForm i s (connectWith (synchronize s))
  /-- It carries BDM commands. -/
  | calls {t : State} {payload : List EngineResult → List Byte} (hcheck : checkOf i = .ok ())
      (h : Closing (runCalls (callsOf i) s).1 t)
      (hlen : ∀ vs, (runCalls (callsOf i) s).2 = .ok vs → (payload vs).length = payloadLenOf i) :
      HostForm i s (answer (payloadLenOf i) payload (t, (runCalls (callsOf i) s).2))

/-- A host command that is one BDM command has the form of a sequence of one. -/
theorem hostForm_single {i : Instr} {o : BdmOp} {args : List Nat} {s t : State} {p : EngineResult → List Byte}
    (hexec : exec i s = .next (answer (payloadLenOf i) p (bdmRun o args s))) (hcalls : callsOf i = [⟨o, args⟩])
    (hcheck : checkOf i = .ok ()) (hlen : ∀ v, (p v).length = payloadLenOf i) (h : exec i s = .next t) :
    HostForm i s t := by
  have hanswer : answer (payloadLenOf i) p (bdmRun o args s) =
      answer (payloadLenOf i) (fun vs => p (vs.headD .none)) ((runCalls (callsOf i) s).1, (runCalls (callsOf i) s).2) := by
    rw [hcalls]
    rcases hrow : bdmRun o args s with ⟨u, v | S⟩
    · rw [runCalls_cons_ok (c := ⟨o, args⟩) hrow]
      rfl
    · rw [runCalls_cons_err (c := ⟨o, args⟩) hrow]
      rfl
  rw [hexec, hanswer] at h
  cases h
  exact .calls hcheck .none fun vs _ => hlen _

theorem resetSequenceOf_ok {m : Byte} {mode : ResetMode} (h : decodeReset m = .ok mode) :
    resetSequenceOf m = Config.softResetSequence mode := by simp only [resetSequenceOf, h]

/-- A READ_MEM that succeeds has its count of data bytes (R259). -/
theorem dataBytes_length {addr : Half} {n : Nat} {s : State} {vs : List EngineResult}
    (h : (runCalls (readCalls addr n) s).2 = .ok vs) : (dataBytes vs).length = n := by
  obtain ⟨j, b, hloop⟩ := readBytes_eq n 0 addr [] s
  have hlen := readBytes_length n 0 addr [] (dataBytes vs) s (by rw [hloop, h]; rfl)
  simpa using hlen

theorem hostForm_setOptions {params : List Byte} {s t : State} (hcheck : checkOf (.setOptions params) = .ok ())
    (h : exec (.setOptions params) s = .next t) : HostForm (.setOptions params) s t := by
  have hfull : optionsSize ≤ params.length := by
    by_contra hshort
    simp [checkOf, Nat.lt_of_not_le hshort] at hcheck
  rw [exec_setOptions, ← List.take_append_drop optionsSize params,
    setOptionsOf_append (by rw [List.length_take, Nat.min_eq_left hfull])] at h
  cases h
  refine .immediate hcheck ?_ rfl
  exact ⟨rfl, rfl, rfl, rfl, rfl, rfl, rfl, rfl, rfl, rfl, rfl, rfl, rfl, rfl, .inl rfl, .inr (.inr ⟨params, rfl⟩),
    fun _ => by simpa using hfull⟩

/-- Every host command has one of the forms. -/
theorem exec_hostForm {i : Instr} {o : HostOp} {s t : State} (hi : i.hostOp = some o) (h : exec i s = .next t) :
    HostForm i s t := by
  cases hcheck : checkOf i with
  | err S =>
    rw [(exec_refused hcheck s).1] at h
    cases h
    exact .refused hcheck
  | ok _ =>
    cases i with
    | setVdd vdd =>
      cases h
      refine .immediate (t := s.setOption Config.vddOffset vdd) hcheck ?_ rfl
      exact ⟨rfl, rfl, rfl, rfl, rfl, rfl, rfl, rfl, rfl, rfl, rfl, rfl, rfl, rfl, .inl rfl, .inr (.inl ⟨vdd, rfl⟩),
        fun hl => by simpa using hl⟩
    | getBdmStatus =>
      cases h
      refine .immediate (t := s.popPower) hcheck ?_ rfl
      constructor <;> simp
    | setOptions params => exact hostForm_setOptions hcheck h
    | setSpeed v =>
      cases h
      refine .immediate (t := (s.setSyncLength (ticksOfHost v)).setSpeedMode .user) hcheck ?_ rfl
      exact ⟨rfl, rfl, rfl, rfl, rfl, rfl, rfl, rfl, rfl, rfl, rfl, rfl, rfl, rfl, .inr ⟨⟨v, rfl⟩, rfl⟩, .inl rfl, id⟩
    | setTarget | getCapabilities | controlPins | getSpeed =>
      cases h
      exact .immediate hcheck (immediateChange_refl _ s) rfl
    | connect =>
      cases h
      exact .connect rfl
    | readStatusReg => exact hostForm_single (exec_readStatusReg s) rfl hcheck payload4_length h
    | writeControlReg v => exact hostForm_single (exec_writeControlReg v s) rfl hcheck (fun _ => rfl) h
    | targetStep => exact hostForm_single (exec_targetStep s) rfl hcheck (fun _ => rfl) h
    | targetGo => exact hostForm_single (exec_targetGo s) rfl hcheck (fun _ => rfl) h
    | targetHalt => exact hostForm_single (exec_targetHalt s) rfl hcheck (fun _ => rfl) h
    | writeDreg id v => exact hostForm_single (exec_writeDreg id v s) rfl hcheck (fun _ => rfl) h
    | readDreg id => exact hostForm_single (exec_readDreg id s) rfl hcheck payload4_length h
    | writeReg id v =>
      cases hr : regDecode id with
      | ok r => exact hostForm_single (exec_writeReg hr v s) (regCalls_ok hr _) hcheck (fun _ => rfl) h
      | err S => simp [checkOf, hr] at hcheck
    | readReg id =>
      cases hr : regDecode id with
      | ok r => exact hostForm_single (exec_readReg hr s) (regCalls_ok hr _) hcheck payload4_length h
      | err S => simp [checkOf, hr] at hcheck
    | targetReset m =>
      cases hm : decodeReset m with
      | ok mode =>
        rw [exec_targetReset hm, softReset_eq, answer_mapReply, ← resetSequenceOf_ok hm] at h
        cases h
        exact .calls (i := .targetReset m) hcheck .clearClock fun _ _ => rfl
      | err S => simp [checkOf, hm] at hcheck
    | writeMem mode count addr data =>
      obtain ⟨j, b, hexec⟩ := exec_writeMem (mode := mode) (data := data) hcheck addr s
      rw [hexec, ← answer_setMemPos] at h
      cases h
      exact .calls (i := .writeMem mode count addr data) hcheck (.position j b) fun _ _ => rfl
    | readMem mode count addr =>
      obtain ⟨j, b, hexec⟩ := exec_readMem (mode := mode) hcheck addr s
      rw [hexec, ← answer_setMemPos] at h
      cases h
      exact .calls (i := .readMem mode count addr) hcheck (.position j b) fun _ => dataBytes_length
    | _ => cases hi

end Sys2Proof.Proofs
end

section
/-! PROOFS. The dispatcher as a whole (spec/60_exceptions.md R314 to R324, spec/70_reset_and_hazards.md R382): one answer to
each request, OK from a waveform engine that obliges, and a bound on the requests; each read off the forms of a command. -/

namespace Sys2Proof.Proofs

open Sys2Proof.Machine Sys2Proof.Laws

theorem respPayloadLen_of_ok {i : Instr} (h : checkOf i = .ok ()) : respPayloadLen i = payloadLenOf i := by
  unfold respPayloadLen
  split
  · next herr =>
    rw [h] at herr
    cases herr
  · rfl

/-- The two outcomes of CONNECT (R242). -/
theorem connectWith_cases (s : State) :
    (∃ w f, syncOutcome s.nextAnswer = some (w, f) ∧
        connectWith (synchronize s) = ((afterMeasure w f s).releaseLatches.setSpeedMode .sync).respond .ok []) ∨
      syncOutcome s.nextAnswer = none ∧
        connectWith (synchronize s) = ((afterSyncFailure s).setSpeedMode .none).respondErr .syncTimeout 0 := by
  cases h : syncOutcome s.nextAnswer with
  | none => exact .inr ⟨rfl, by rw [synchronize_err h, connectWith]⟩
  | some p => exact .inl ⟨p.1, p.2, rfl, by rw [synchronize_ok (w := p.1) (f := p.2) h, connectWith]⟩

theorem engineFrame_afterMeasure (v : Word) (f : Rat) (s : State) : EngineFrame s (afterMeasure v f s) := by
  constructor <;> simp

theorem engineFrame_afterSyncFailure (s : State) : EngineFrame s (afterSyncFailure s) := by
  constructor <;> simp [afterSyncFailure]

theorem loopFrame_closing {s t u : State} (h : EngineFrame s t) (hc : Closing t u) : LoopFrame s u := by
  cases hc with
  | none => exact loopFrame_of_engine h
  | clearClock => exact loopFrame_of_engine (engineFrame_trans h (engineFrame_clearClock t))
  | position j b => exact loopFrame_trans (loopFrame_of_engine h) (loopFrame_setMemPos j b t)

/-! One answer to each request -/

/-- The statuses of a response (R314, R318). -/
def IsResponseStatus (S : Status) : Prop :=
  S = .ok ∨ S = .illegalParams ∨ S = .featureNotSupported ∨ S = .syncTimeout ∨ S = .bkgdTimeout

theorem isResponseStatus_of_check {S : Status} (h : IsCheckStatus S) : IsResponseStatus S := by
  rcases h with rfl | rfl <;> simp [IsResponseStatus]

theorem isResponseStatus_of_engine {S : Status} (h : IsEngineStatus S) : IsResponseStatus S := by
  rcases h with rfl | rfl <;> simp [IsResponseStatus]

/-- From `s` to `t` one response was emitted, with a payload of `n` bytes, and nothing was returned to a caller. -/
def Responded (s t : State) (n : Nat) : Prop :=
  ∃ (S : Status) (payload : List Byte),
    t.io.responses = s.io.responses ++ [S.code :: payload] ∧ t.disp.rspFrame = S.code :: payload ∧
      payload.length = n ∧ t.io.results = s.io.results ∧ IsResponseStatus S

theorem responded_respond {s u : State} (hrsp : u.io.responses = s.io.responses) (hres : u.io.results = s.io.results)
    (payload : List Byte) : Responded s (u.respond .ok payload) payload.length :=
  ⟨.ok, payload, by rw [respond_io, hrsp], rfl, rfl, hres, .inl rfl⟩

theorem responded_respondErr {s u : State} (hrsp : u.io.responses = s.io.responses)
    (hres : u.io.results = s.io.results) {S : Status} (hS : IsResponseStatus S) (n : Nat) :
    Responded s (u.respondErr S n) n :=
  ⟨S, u.freeBytes n, by rw [respondErr_io, hrsp], rfl, freeBytes_length u n, hres, hS⟩

theorem responded_host {i : Instr} {s t : State} (h : HostForm i s t) : Responded s t (respPayloadLen i) := by
  cases h with
  | refused hcheck => exact responded_respondErr rfl rfl (isResponseStatus_of_check (exec_refused hcheck s).2) _
  | immediate hcheck hchange hlen =>
    rw [respPayloadLen_of_ok hcheck, ← hlen]
    exact responded_respond hchange.responses hchange.results _
  | connect hi =>
    subst hi
    rcases connectWith_cases s with ⟨w, f, _, h⟩ | ⟨_, h⟩ <;> rw [h]
    · have hframe := engineFrame_afterMeasure w f s
      exact responded_respond hframe.responses hframe.results []
    · have hframe := engineFrame_afterSyncFailure s
      exact responded_respondErr hframe.responses hframe.results (isResponseStatus_of_engine (.inl rfl)) 0
  | @calls u payload hcheck hclose hlen =>
    have hframe := loopFrame_closing (engineFrame_runCalls (callsOf i) s) hclose
    rw [respPayloadLen_of_ok hcheck, answer]
    cases hr : (runCalls (callsOf i) s).2 with
    | ok vs =>
      rw [← hlen vs hr]
      exact responded_respond hframe.responses hframe.results _
    | err S => exact responded_respondErr hframe.responses hframe.results (isResponseStatus_of_engine (runCalls_err hr)) _

/-- Settles O49: the one response of a host command, from its form, and the one result of a BDM command. -/
theorem oneAnswerPerRequest : Obligations.OneAnswerPerRequest := by
  constructor
  · intro i s t hi ht
    obtain ⟨o, ho⟩ := Option.isSome_iff_exists.mp hi
    exact responded_host (exec_hostForm ho ht)
  · intro i s t hi ht
    obtain ⟨o, ho⟩ := Option.isSome_iff_exists.mp hi
    have hframe := engineFrame_bdmRun o (argsOf i) s
    rw [exec_bdm ho] at ht
    cases ht
    exact ⟨hframe.responses, hframe.disp, (bdmRun o (argsOf i) s).2, by simp [hframe.results], fun S => bdmRun_err⟩

/-! OK when the waveform engine obliges -/

theorem callsOf_obliged {i : Instr} {s : State} (h : Obliging (answersNeeded i) s) :
    ∃ vs, (runCalls (callsOf i) s).2 = .ok vs := by
  rcases callsOf_answers i with hlen | ⟨hkeep, hlen⟩
  · exact runCalls_obliged _ (obliging_mono hlen h)
  · refine runCalls_obliged_of_keepsClock hkeep (obliging_mono ?_ h)
    have hwaits : rowWaits s ≤ 2 := by
      rw [rowWaits]
      split <;> decide
    omega

/-- Settles O50: with its checks passed and enough accepted answers, a command's form leaves it no failure. -/
theorem checkedCommandsAnswerOk : Obligations.CheckedCommandsAnswerOk := by
  intro i s hi hcheck hob
  obtain ⟨o, ho⟩ := Option.isSome_iff_exists.mp hi
  obtain ⟨t, ht⟩ := exec_next i s
  rw [ht]
  cases exec_hostForm ho ht with
  | refused herr =>
    rw [hcheck] at herr
    cases herr
  | immediate _ hchange hlen => exact ⟨_, _, rfl, by rw [respond_io, hchange.responses]; rfl, hlen⟩
  | connect hc =>
    subst hc
    obtain ⟨w, f, ha, hf, -⟩ := obliging_next (n := 0) hob
    rcases connectWith_cases s with ⟨v, g, _, h⟩ | ⟨hnone, _⟩
    · have hframe := engineFrame_afterMeasure v g s
      exact ⟨_, [], rfl, by rw [h, ← hframe.responses]; rfl, rfl⟩
    · simp [ha, syncOutcome_done, hf] at hnone
  | @calls u payload _ hclose hlen =>
    obtain ⟨vs, hvs⟩ := callsOf_obliged hob
    have hframe := loopFrame_closing (engineFrame_runCalls (callsOf i) s) hclose
    refine ⟨_, payload vs, rfl, ?_, hlen vs hvs⟩
    rw [hvs, answer_ok, respond_io, hframe.responses]
    rfl

/-! The number of requests -/

/-- From `s` to `t` the trace has grown, by at most `n` requests. -/
def Requests (s t : State) (n : Nat) : Prop :=
  ∃ new, t.io.trace = s.io.trace ++ new ∧ (requestsOf new).length ≤ n

theorem requests_none {s t : State} (h : t.io.trace = s.io.trace) (n : Nat) : Requests s t n :=
  ⟨[], by rw [h, List.append_nil], Nat.zero_le n⟩

theorem requests_mono {s t : State} {m n : Nat} (hmn : m ≤ n) (h : Requests s t m) : Requests s t n := by
  obtain ⟨new, htrace, hlen⟩ := h
  exact ⟨new, htrace, hlen.trans hmn⟩

theorem requests_trans {s t u : State} {m n : Nat} (h : Requests s t m) (k : Requests t u n) : Requests s u (m + n) := by
  obtain ⟨new, htrace, hlen⟩ := h
  obtain ⟨new', htrace', hlen'⟩ := k
  refine ⟨new ++ new', by rw [htrace', htrace, List.append_assoc], ?_⟩
  rw [requestsOf_append, List.length_append]
  exact Nat.add_le_add hlen hlen'

/-- The requests of a claim. -/
def claimCost (s : State) : Nat := if s.eng.claimed then 0 else 1

/-- The requests of a transaction before its WE_SHIFT (R140, R141). -/
def startCost (s : State) : Nat :=
  claimCost s + if s.eng.clockKnown then (if s.eng.progLoaded then 0 else 1) else 3

theorem startCost_le (s : State) : startCost s ≤ claimCost s + 3 := by
  rw [startCost]
  split
  · split <;> omega
  · exact le_rfl

theorem claimCost_le (s : State) : claimCost s ≤ 1 := by
  rw [claimCost]
  split <;> decide

theorem requestsOf_claimEvents (s : State) : (requestsOf (claimEvents s)).length = claimCost s := by
  cases h : s.eng.claimed <;> simp [claimEvents, claimCost, h]

theorem requestsOf_loadEvents (s : State) :
    (requestsOf (loadEvents s)).length = if s.eng.progLoaded then 0 else 1 := by
  cases h : s.eng.progLoaded <;> simp [loadEvents, h]

theorem requestsOf_shiftEvents (tx : Word) (nt nr : Nat) (a : WeAnswer) :
    (requestsOf (shiftEvents tx nt nr a)).length = 1 := rfl

theorem requestsOf_syncEvents (s : State) (a : WeAnswer) :
    (requestsOf (syncEvents s a)).length = claimCost s + 2 := by
  simp [syncEvents, requestsOf_append, requestsOf_claimEvents]

theorem requests_afterMeasure (v : Word) (f : Rat) (s : State) : Requests s (afterMeasure v f s) (claimCost s + 2) :=
  ⟨_, afterMeasure_trace v f s, (requestsOf_syncEvents s _).le⟩

theorem requests_afterSyncFailure (s : State) : Requests s (afterSyncFailure s) (claimCost s + 2) :=
  ⟨_, afterSyncFailure_trace s, (requestsOf_syncEvents s _).le⟩

/-- A row from a state whose clock is known: what is missing, and the shift. -/
theorem requests_rowOutcome (o : BdmOp) (args : List Nat) {s : State} (hk : s.eng.clockKnown = true) (a : WeAnswer) :
    Requests s (rowOutcome o args s a).1 (startCost s + 1) := by
  refine ⟨claimEvents s ++ loadEvents s ++ shiftEvents (rowWord o args) o.format.txBits o.format.rxBits a,
    by rw [rowOutcome_trace]; simp only [List.append_assoc], ?_⟩
  rw [requestsOf_append, requestsOf_append, List.length_append, List.length_append, requestsOf_claimEvents,
    requestsOf_loadEvents, requestsOf_shiftEvents, startCost, hk, if_pos rfl]

theorem requests_bdmRun (o : BdmOp) (args : List Nat) (s : State) :
    Requests s (bdmRun o args s).1 (startCost s + 1) := by
  rcases bdmRun_outcomes o args s with ⟨hk, h⟩ | ⟨v, f, hk, _, _, h⟩ | ⟨hk, _, h⟩ <;> rw [h]
  · exact requests_rowOutcome o args hk _
  · have hrow := requests_rowOutcome o args (s := afterMeasure v f s) rfl s.popAnswer.nextAnswer
    refine requests_mono ?_ (requests_trans (requests_afterMeasure v f s) hrow)
    simp [startCost, claimCost, hk]
  · refine requests_mono ?_ (requests_afterSyncFailure s)
    simp [startCost, hk]

/-- After any BDM command the resource is claimed. -/
theorem bdmRun_claimed (o : BdmOp) (args : List Nat) (s : State) : (bdmRun o args s).1.eng.claimed = true := by
  have hrow (u : State) (a : WeAnswer) : (rowOutcome o args u a).1.eng.claimed = true := by
    cases a <;> simp [rowOutcome]
  rcases bdmRun_outcomes o args s with ⟨_, h⟩ | ⟨v, f, _, _, _, h⟩ | ⟨_, _, h⟩ <;> rw [h]
  · exact hrow s _
  · exact hrow _ _
  · rfl

/-- After an OK of a command that keeps the clock, the engine is warm. -/
theorem bdmRun_ok_warm {o : BdmOp} (ho : clearsClock o = false) {args : List Nat} {s t : State} {v : EngineResult}
    (h : bdmRun o args s = (t, .ok v)) : Warm t := by
  have hrow (u : State) (a : WeAnswer) (hr : rowOutcome o args u a = (t, .ok v)) : Warm t := by
    cases a with
    | timeout => cases hr
    | done w =>
      cases hr
      rw [postClock_keep ho]
      exact ⟨rfl, rfl, rfl⟩
  rcases bdmRun_outcomes o args s with ⟨_, hb⟩ | ⟨_, _, _, _, _, hb⟩ | ⟨_, _, hb⟩ <;> rw [hb] at h
  · exact hrow _ _ h
  · exact hrow _ _ h
  · cases h

theorem claimCost_bdmRun (o : BdmOp) (args : List Nat) (s : State) : claimCost (bdmRun o args s).1 = 0 := by
  rw [claimCost, bdmRun_claimed, if_pos rfl]

theorem startCost_warm {s : State} (h : Warm s) : startCost s = 0 := by
  simp [startCost, claimCost, h.claimed, h.clockKnown, h.progLoaded]

/-- One claim, and four requests for each command. -/
theorem requests_runCalls (cs : List BdmCall) (s : State) :
    Requests s (runCalls cs s).1 (claimCost s + 4 * cs.length) := by
  induction cs generalizing s with
  | nil => exact requests_none rfl _
  | cons c cs ih =>
    have hrow := requests_bdmRun c.op c.args s
    have hclaim := claimCost_bdmRun c.op c.args s
    have hstart := startCost_le s
    rcases h : bdmRun c.op c.args s with ⟨t, v | S⟩ <;> rw [h] at hrow hclaim
    · rw [runCalls_cons_ok h]
      refine requests_mono ?_ (requests_trans hrow (ih t))
      rw [hclaim, List.length_cons]
      omega
    · rw [runCalls_cons_err h]
      refine requests_mono ?_ hrow
      rw [List.length_cons]
      omega

/-- What is missing at the start, and one request for each command, where none clears the clock. -/
theorem requests_runCalls_of_keepsClock {cs : List BdmCall} (hkeep : KeepsClock cs) (s : State) :
    Requests s (runCalls cs s).1 (startCost s + cs.length) := by
  induction cs generalizing s with
  | nil => exact requests_none rfl _
  | cons c cs ih =>
    have hrow := requests_bdmRun c.op c.args s
    rcases h : bdmRun c.op c.args s with ⟨t, v | S⟩ <;> rw [h] at hrow
    · have hwarm := startCost_warm (bdmRun_ok_warm (hkeep c (by simp)) h)
      rw [runCalls_cons_ok h]
      refine requests_mono ?_ (requests_trans hrow (ih (fun x hx => hkeep x (List.mem_cons_of_mem _ hx)) t))
      rw [hwarm, List.length_cons]
      omega
    · rw [runCalls_cons_err h]
      refine requests_mono ?_ hrow
      rw [List.length_cons]
      omega

theorem requests_callsOf (i : Instr) (s : State) : Requests s (runCalls (callsOf i) s).1 (requestBound i) := by
  have hclaim := claimCost_le s
  rcases callsOf_requests i with hlen | ⟨hkeep, hlen⟩
  · exact requests_mono (by omega) (requests_runCalls (callsOf i) s)
  · have hstart := startCost_le s
    exact requests_mono (by omega) (requests_runCalls_of_keepsClock hkeep s)

theorem closing_trace {t u : State} (h : Closing t u) : u.io.trace = t.io.trace := by cases h <;> rfl

theorem answer_trace {α : Type} (n : Nat) (payload : α → List Byte) (t : State) (r : Reply α) :
    (answer n payload (t, r)).io.trace = t.io.trace := by cases r <;> rfl

theorem requestBound_bdm {i : Instr} {o : BdmOp} (h : i.bdmOp = some o) : requestBound i = 5 := by
  cases i <;> cases h <;> rfl

theorem requests_host {i : Instr} {s t : State} (h : HostForm i s t) : Requests s t (requestBound i) := by
  cases h with
  | refused _ => exact requests_none rfl _
  | immediate _ hchange _ => exact requests_none hchange.trace _
  | connect hi =>
    subst hi
    have hbound : claimCost s + 2 ≤ requestBound .connect := Nat.add_le_add_right (claimCost_le s) 2
    rcases connectWith_cases s with ⟨w, f, _, h⟩ | ⟨_, h⟩ <;> rw [h]
    · exact requests_mono hbound (requests_afterMeasure w f s)
    · exact requests_mono hbound (requests_afterSyncFailure s)
  | @calls u payload _ hclose _ =>
    obtain ⟨new, htrace, hlen⟩ := requests_callsOf i s
    exact ⟨new, by rw [answer_trace, closing_trace hclose, htrace], hlen⟩

/-- Settles O51: a BDM command is one row, and a host command's form bounds what it adds to the trace. -/
theorem requestsPerCommandBounded : Obligations.RequestsPerCommandBounded := by
  intro i s t ht
  rcases bdm_or_host i with ⟨o, hb, _⟩ | ⟨o, _, hh⟩
  · have hcost : startCost s + 1 ≤ 5 := by
      have hstart := startCost_le s
      have hclaim := claimCost_le s
      omega
    rw [exec_bdm hb] at ht
    cases ht
    rw [requestBound_bdm hb]
    exact requests_mono hcost (requests_bdmRun o (argsOf i) s)
  · exact requests_host (exec_hostForm hh ht)

end Sys2Proof.Proofs
end

section
/-! PROOFS. What any instruction does to the engine, as a chain of engine operations (spec/40_engine_core.md R131, R140), and
two statements that hold along such a chain: what no command changes, and how the clock becomes known. -/

namespace Sys2Proof.Proofs

open Sys2Proof.Machine Sys2Proof.Laws

/-! Chains of engine operations -/

/-- Two states whose engine flags, measurement, WE port and trace agree. -/
structure SameEngine (s t : State) : Prop where
  claimed : t.eng.claimed = s.eng.claimed
  progLoaded : t.eng.progLoaded = s.eng.progLoaded
  clockKnown : t.eng.clockKnown = s.eng.clockKnown
  fPio : t.eng.fPio = s.eng.fPio
  we : t.we = s.we
  trace : t.io.trace = s.io.trace

/-- One engine operation, or a change that does not concern the engine. -/
inductive EngineMove : State → State → Prop
  | transact (op : Byte) (P nt nr : Nat) (s : State) : EngineMove s (transact op P nt nr s).1
  | synchronize (s : State) : EngineMove s (synchronize s).1
  | clearClock (s : State) : EngineMove s s.clearClock
  | elsewhere {s t : State} (h : SameEngine s t) : EngineMove s t

/-- A chain of engine operations. -/
abbrev EngineMoves : State → State → Prop := Relation.ReflTransGen EngineMove

theorem moves_elsewhere {s t u : State} (h : EngineMoves s t) (k : SameEngine t u) : EngineMoves s u :=
  h.tail (.elsewhere k)

theorem moves_bdmRun (o : BdmOp) (args : List Nat) (s : State) : EngineMoves s (bdmRun o args s).1 := by
  have hrow : EngineMoves s (rowTransact o args s).1 := .single (.transact _ _ _ _ s)
  rcases bdmRun_cases o args s with ⟨S, _, h⟩ | ⟨v, _, h⟩ <;> rw [h]
  · exact hrow
  · cases clearsClock o with
    | true => exact hrow.tail (.clearClock _)
    | false => exact hrow

theorem moves_runCalls (cs : List BdmCall) (s : State) : EngineMoves s (runCalls cs s).1 := by
  induction cs generalizing s with
  | nil => exact .refl
  | cons c cs ih =>
    have hrow := moves_bdmRun c.op c.args s
    rcases h : bdmRun c.op c.args s with ⟨t, v | S⟩ <;> rw [h] at hrow
    · rw [runCalls_cons_ok h]
      exact hrow.trans (ih t)
    · rw [runCalls_cons_err h]
      exact hrow

theorem moves_closing {s t u : State} (h : EngineMoves s t) (hc : Closing t u) : EngineMoves s u := by
  cases hc with
  | none => exact h
  | clearClock => exact h.tail (.clearClock t)
  | position j b => exact moves_elsewhere h ⟨rfl, rfl, rfl, rfl, rfl, rfl⟩

theorem sameEngine_answer {α : Type} (n : Nat) (payload : α → List Byte) (t : State) (r : Reply α) :
    SameEngine t (answer n payload (t, r)) := by cases r <;> exact ⟨rfl, rfl, rfl, rfl, rfl, rfl⟩

theorem sameEngine_connectWith (p : State × Reply Rat) : SameEngine p.1 (connectWith p) := by
  rcases p with ⟨t, f | S⟩ <;> exact ⟨rfl, rfl, rfl, rfl, rfl, rfl⟩

theorem moves_host {i : Instr} {s t : State} (h : HostForm i s t) : EngineMoves s t := by
  cases h with
  | refused _ => exact .single (.elsewhere ⟨rfl, rfl, rfl, rfl, rfl, rfl⟩)
  | immediate _ hc _ =>
    exact .single (.elsewhere ⟨hc.claimed, hc.progLoaded, hc.clockKnown, hc.fPio, hc.we, hc.trace⟩)
  | connect _ => exact moves_elsewhere (.single (.synchronize s)) (sameEngine_connectWith _)
  | calls _ hclose _ => exact moves_elsewhere (moves_closing (moves_runCalls (callsOf i) s) hclose) (sameEngine_answer _ _ _ _)

/-- Every instruction is a chain of engine operations. -/
theorem exec_moves {i : Instr} {s t : State} (h : exec i s = .next t) : EngineMoves s t := by
  rcases bdm_or_host i with ⟨o, hb, _⟩ | ⟨o, _, hh⟩
  · rw [exec_bdm hb] at h
    cases h
    exact moves_elsewhere (moves_bdmRun o (argsOf i) s) ⟨rfl, rfl, rfl, rfl, rfl, rfl⟩
  · exact moves_host (exec_hostForm hh h)

/-! What no command changes -/

theorem transact_claimed (op : Byte) (P nt nr : Nat) (s : State) : (transact op P nt nr s).1.eng.claimed = true := by
  cases hk : s.eng.clockKnown with
  | true => rw [transact_known hk, knownShift_claimed]
  | false =>
    cases ha : syncOutcome s.nextAnswer with
    | none => rw [transact_unknown_err hk ha, afterSyncFailure_claimed]
    | some p =>
      obtain ⟨hv, hf⟩ := syncOutcome_some (w := p.1) (f := p.2) ha
      rw [transact_unknown_ok hk hv hf, knownShift_claimed]

theorem synchronize_claimed (s : State) : (synchronize s).1.eng.claimed = true := by
  cases h : syncOutcome s.nextAnswer with
  | none => rw [synchronize_err h, afterSyncFailure_claimed]
  | some p => rw [synchronize_ok (w := p.1) (f := p.2) h, releaseLatches_eng_claimed, afterMeasure_claimed]

/-- No engine operation gives the resource back (R21). -/
theorem moves_claimed {s t : State} (h : EngineMoves s t) (hs : s.eng.claimed = true) : t.eng.claimed = true := by
  induction h with
  | refl => exact hs
  | tail _ hmove ih =>
    cases hmove with
    | transact op P nt nr => exact transact_claimed op P nt nr _
    | synchronize => exact synchronize_claimed _
    | clearClock => exact ih
    | elsewhere h => exact h.claimed.trans ih

/-- What no instruction writes, and who writes the speed mode and the options (R29, R30, R31, D42). -/
structure ConfigurationKept (i : Instr) (s t : State) : Prop where
  targetType : t.cable.targetType = s.cable.targetType
  ackMode : t.cable.ackMode = s.cable.ackMode
  resetDetected : t.cable.resetDetected = s.cable.resetDetected
  inbox : t.io.inbox = s.io.inbox
  seq : t.eng.seq = s.eng.seq
  speedMode : t.cable.speedMode ≠ s.cable.speedMode →
    (i = .connect ∧ t.cable.speedMode ≠ .guessed) ∨ ((∃ h, i = .setSpeed h) ∧ t.cable.speedMode = .user)
  options : t.options ≠ s.options → (∃ b, i = .setVdd b) ∨ ∃ p, i = .setOptions p

theorem configurationKept_of_loop {s t : State} (h : LoopFrame s t) (i : Instr) : ConfigurationKept i s t where
  targetType := by rw [h.cable]
  ackMode := by rw [h.cable]
  resetDetected := by rw [h.cable]
  inbox := h.inbox
  seq := h.seq
  speedMode hne := absurd (by rw [h.cable]) hne
  options hne := absurd h.options hne

theorem configurationKept_answer {i : Instr} {s t : State} (h : LoopFrame s t) {α : Type} (n : Nat)
    (payload : α → List Byte) (r : Reply α) : ConfigurationKept i s (answer n payload (t, r)) := by
  obtain ⟨htarget, hack, hreset, hinbox, hseq, hspeed, hoptions⟩ := configurationKept_of_loop h i
  cases r <;> exact ⟨htarget, hack, hreset, hinbox, hseq, hspeed, hoptions⟩

theorem configurationKept_host {i : Instr} {s t : State} (h : HostForm i s t) : ConfigurationKept i s t := by
  cases h with
  | refused _ => exact ⟨rfl, rfl, rfl, rfl, rfl, fun hne => absurd rfl hne, fun hne => absurd rfl hne⟩
  | immediate _ hc _ =>
    exact ⟨hc.targetType, hc.ackMode, hc.resetDetected, hc.inbox, hc.seq,
      fun hne => .inr (hc.speedMode.resolve_left hne), fun hne => hc.options.resolve_left hne⟩
  | connect hi =>
    have hframe := engineFrame_synchronize s
    have htarget := congrArg CableStatus.targetType hframe.cable
    have hack := congrArg CableStatus.ackMode hframe.cable
    have hreset := congrArg CableStatus.resetDetected hframe.cable
    rw [connectWith]
    split <;>
      exact ⟨htarget, hack, hreset, hframe.inbox, hframe.seq, fun _ => .inl ⟨hi, nofun⟩,
        fun hne => absurd hframe.options hne⟩
  | calls _ hclose _ => exact configurationKept_answer (loopFrame_closing (engineFrame_runCalls (callsOf i) s) hclose) _ _ _

theorem exec_configurationKept {i : Instr} {s t : State} (h : exec i s = .next t) : ConfigurationKept i s t := by
  rcases bdm_or_host i with ⟨o, hb, _⟩ | ⟨o, _, hh⟩
  · rw [exec_bdm hb] at h
    cases h
    obtain ⟨htarget, hack, hreset, hinbox, hseq, hspeed, hoptions⟩ :=
      configurationKept_of_loop (loopFrame_of_engine (engineFrame_bdmRun o (argsOf i) s)) i
    exact ⟨htarget, hack, hreset, hinbox, hseq, hspeed, hoptions⟩
  · exact configurationKept_host (exec_hostForm hh h)

/-- Settles O52: the claim stands along the chain of engine operations; the rest is the frame of each command's form. -/
theorem configurationFrame : Obligations.ConfigurationFrame := by
  intro i s t h
  obtain ⟨htarget, hack, hreset, hinbox, hseq, hspeed, hoptions⟩ := exec_configurationKept h
  exact ⟨moves_claimed (exec_moves h), htarget, hack, hreset, hinbox, hseq, hspeed, hoptions⟩

/-! How the clock becomes known -/

/-- From `s` to `t` the trace has grown, and where the clock became known or the frequency changed, by an accepted
measurement of the frequency `t` holds. -/
def MeasuredWhenChanged (s t : State) : Prop :=
  ∃ new, t.io.trace = s.io.trace ++ new ∧
    ((s.eng.clockKnown = false ∧ t.eng.clockKnown = true) ∨ t.eng.fPio ≠ s.eng.fPio →
      ∃ (before after : List WeEvent) (w : Word),
        new = before ++ [.request .sync, .answer (.done w)] ++ after ∧ tickFrequency w = some t.eng.fPio)

theorem measured_of_unchanged {s t : State} {new : List WeEvent} (htrace : t.io.trace = s.io.trace ++ new)
    (hclock : t.eng.clockKnown = true → s.eng.clockKnown = true) (hf : t.eng.fPio = s.eng.fPio) :
    MeasuredWhenChanged s t := by
  refine ⟨new, htrace, fun hchange => ?_⟩
  rcases hchange with ⟨hs, ht⟩ | hne
  · rw [hclock ht] at hs
    cases hs
  · exact absurd hf hne

theorem measured_by {s t : State} {v : Word} {f : Rat} (hf : tickFrequency v = some f) {after : List WeEvent}
    (htrace : t.io.trace = s.io.trace ++ syncEvents s (.done v) ++ after) (ht : t.eng.fPio = f) :
    MeasuredWhenChanged s t := by
  refine ⟨syncEvents s (.done v) ++ after, by rw [htrace, List.append_assoc], fun _ => ?_⟩
  exact ⟨claimEvents s ++ [.request (.load .sync divSync)], after, v, by simp [syncEvents], by rw [hf, ht]⟩

/-- A later measurement stands over an earlier one. -/
theorem measured_trans {s t u : State} (h : MeasuredWhenChanged s t) (k : MeasuredWhenChanged t u) :
    MeasuredWhenChanged s u := by
  obtain ⟨new, htrace, hnew⟩ := h
  obtain ⟨new', htrace', hnew'⟩ := k
  refine ⟨new ++ new', by rw [htrace', htrace, List.append_assoc], fun hchange => ?_⟩
  by_cases hlate : (t.eng.clockKnown = false ∧ u.eng.clockKnown = true) ∨ u.eng.fPio ≠ t.eng.fPio
  · obtain ⟨before, after, w, rfl, hw⟩ := hnew' hlate
    exact ⟨new ++ before, after, w, by simp, hw⟩
  · obtain ⟨hclock, hf⟩ := not_or.mp hlate
    rw [not_not] at hf
    have hearly : (s.eng.clockKnown = false ∧ t.eng.clockKnown = true) ∨ t.eng.fPio ≠ s.eng.fPio := by
      rcases hchange with ⟨hs, hu⟩ | hne
      · exact .inl ⟨hs, by simpa [hu] using hclock⟩
      · exact .inr (by rwa [← hf])
    obtain ⟨before, after, w, rfl, hw⟩ := hnew hearly
    exact ⟨before, after ++ new', w, by simp, by rw [hw, hf]⟩

theorem measured_transact (op : Byte) (P nt nr : Nat) (s : State) : MeasuredWhenChanged s (transact op P nt nr s).1 := by
  cases hk : s.eng.clockKnown with
  | true =>
    rw [transact_known hk]
    exact measured_of_unchanged (by simp only [knownShift_trace, List.append_assoc]; rfl) (fun _ => hk) rfl
  | false =>
    cases ha : syncOutcome s.nextAnswer with
    | none =>
      rw [transact_unknown_err hk ha]
      exact measured_of_unchanged (afterSyncFailure_trace s) nofun rfl
    | some p =>
      obtain ⟨hv, hf⟩ := syncOutcome_some (w := p.1) (f := p.2) ha
      rw [transact_unknown_ok hk hv hf]
      exact measured_by hf (by simp only [knownShift_trace, afterMeasure_trace, List.append_assoc]; rfl) rfl

theorem measured_synchronize (s : State) : MeasuredWhenChanged s (synchronize s).1 := by
  cases ha : syncOutcome s.nextAnswer with
  | none =>
    rw [synchronize_err ha]
    exact measured_of_unchanged (afterSyncFailure_trace s) nofun rfl
  | some p =>
    obtain ⟨-, hf⟩ := syncOutcome_some (w := p.1) (f := p.2) ha
    rw [synchronize_ok (w := p.1) (f := p.2) ha]
    exact measured_by hf (List.append_nil _).symm rfl

theorem measured_moves {s t : State} (h : EngineMoves s t) : MeasuredWhenChanged s t := by
  induction h with
  | refl => exact measured_of_unchanged (List.append_nil _).symm id rfl
  | tail _ hmove ih =>
    refine measured_trans ih ?_
    cases hmove with
    | transact op P nt nr => exact measured_transact op P nt nr _
    | synchronize => exact measured_synchronize _
    | clearClock => exact measured_of_unchanged (List.append_nil _).symm nofun rfl
    | elsewhere h =>
      exact measured_of_unchanged (new := []) (by rw [h.trace, List.append_nil]) (fun hk => by rw [← h.clockKnown, hk])
        h.fPio

/-- Settles O53: the measurement is found along the chain of engine operations. -/
theorem clockKnownOnlyByMeasurement : Obligations.ClockKnownOnlyByMeasurement := by
  intro i s t h hchange
  obtain ⟨new, htrace, hnew⟩ := measured_moves (exec_moves h)
  obtain ⟨before, after, w, rfl, hw⟩ := hnew hchange
  exact ⟨before, after, w, by rw [htrace]; simp only [List.append_assoc], hw⟩

end Sys2Proof.Proofs
end

section
/-! PROOFS. The sequencer (spec/40_engine_core.md R150 to R153): one equation for each of its states; and its refinement of the
procedures, whose phases are the same functions, `E.seq` aside. -/

namespace Sys2Proof.Proofs

open Sys2Proof.Machine Sys2Proof.Laws

/-! The phases that wait for an answer -/

theorem syncAnswerPhase_ok {s : State} {w : Word} {f : Rat} (h : syncOutcome s.nextAnswer = some (w, f)) :
    syncAnswerPhase s = (s.weWait.2.storeSync w f, .ok f) := by simp only [syncAnswerPhase, weWait_answer, h]

theorem syncAnswerPhase_err {s : State} (h : syncOutcome s.nextAnswer = none) :
    syncAnswerPhase s = (s.weWait.2.clearClock, .err .syncTimeout) := by
  simp only [syncAnswerPhase, weWait_answer, h]

theorem shiftAnswerPhase_done {s : State} {w : Word} (h : s.nextAnswer = .done w) :
    shiftAnswerPhase s = (s.weWait.2.setRxWord w, .ok (receivedOf s.eng.rxBits w)) := by
  simp only [shiftAnswerPhase, weWait_answer, h]

theorem shiftAnswerPhase_timeout {s : State} (h : s.nextAnswer = .timeout) :
    shiftAnswerPhase s = ((s.weWait.2.setProgLoaded false).clearClock, .err .bkgdTimeout) := by
  simp only [shiftAnswerPhase, weWait_answer, h]

/-! One transition out of each state -/

/-- The end of a bare engine operation: back in SEQ_IDLE, the result with the caller (R151). -/
def finish (s : State) (r : Reply EngineResult) : State := (s.releaseLatches.setSeq .idle).pushResult r

theorem sequencerStep_claim {s : State} (h : s.eng.seq = .claim) :
    sequencerStep s = (ensureClaimed s).setSeq (afterClaim s) := by simp only [sequencerStep, h]

theorem sequencerStep_syncLoad {s : State} (h : s.eng.seq = .syncLoad) :
    sequencerStep s = (syncLoadPhase s).setSeq .syncWait := by simp only [sequencerStep, h]

theorem sequencerStep_txnLoad {s : State} (h : s.eng.seq = .txnLoad) :
    sequencerStep s = (txnLoadPhase s).setSeq .shift := by simp only [sequencerStep, h]

theorem sequencerStep_shift {s : State} (h : s.eng.seq = .shift) :
    sequencerStep s = (shiftPhase s).setSeq .shiftWait := by simp only [sequencerStep, h]

theorem sequencerStep_syncWait_err {s : State} (h : s.eng.seq = .syncWait) {t : State} {S : Status}
    (ha : syncAnswerPhase s = (t, .err S)) : sequencerStep s = finish t (.err S) := by
  simp only [sequencerStep, h, ha, finish]

theorem sequencerStep_syncWait_ret {s : State} (h : s.eng.seq = .syncWait) {t : State} {f : Rat}
    (ha : syncAnswerPhase s = (t, .ok f)) (hc : s.eng.cont = .ret) :
    sequencerStep s = finish t (.ok (.frequency f)) := by
  simp only [sequencerStep, h, ha, hc, if_pos, finish]

theorem sequencerStep_syncWait_txn {s : State} (h : s.eng.seq = .syncWait) {t : State} {f : Rat}
    (ha : syncAnswerPhase s = (t, .ok f)) (hc : s.eng.cont = .txn) : sequencerStep s = t.setSeq .txnLoad := by
  simp only [sequencerStep, h, ha, hc, reduceCtorEq, if_false]

theorem sequencerStep_shiftWait {s : State} (h : s.eng.seq = .shiftWait) :
    sequencerStep s = finish (shiftAnswerPhase s).1 (mapReply .received (shiftAnswerPhase s).2) := by
  rcases ha : shiftAnswerPhase s with ⟨t, v | S⟩ <;> simp only [sequencerStep, h, ha, finish, mapReply]

/-! The transitions as whole next states -/

theorem step_of_seq {s : State} {q : SeqState} (h : s.eng.seq = q) (hq : q ≠ .idle) : step s = .next (sequencerStep s) :=
  step_busy (h ▸ hq)

theorem step_claim {s : State} (h : s.eng.seq = .claim) :
    step s =
      .next
        { s with
          eng :=
            { s.eng with
              claimed := true
              seq := if s.eng.cont = .ret ∨ s.eng.clockKnown = false then .syncLoad else .txnLoad }
          io := { s.io with trace := s.io.trace ++ claimEvents s } } := by
  rw [step_of_seq h nofun, sequencerStep_claim h, ensureClaimed_state]
  rfl

theorem step_syncLoad {s : State} (h : s.eng.seq = .syncLoad) :
    step s =
      .next
        { s with
          eng := { s.eng with progLoaded := false, seq := .syncWait }
          we := { s.we with program := some .sync, divider := divSync, outstanding := some .sync }
          io := { s.io with trace := s.io.trace ++ [.request (.load .sync divSync), .request .sync] } } := by
  rw [step_of_seq h nofun, sequencerStep_syncLoad h, syncLoadPhase_state]
  rfl

theorem step_txnLoad_loaded {s : State} (h : s.eng.seq = .txnLoad) (hp : s.eng.progLoaded = true) :
    step s = .next { s with eng := { s.eng with seq := .shift } } := by
  have hphase : txnLoadPhase s = s := by simp [txnLoadPhase, hp]
  rw [step_of_seq h nofun, sequencerStep_txnLoad h, hphase]
  rfl

theorem step_txnLoad {s : State} (h : s.eng.seq = .txnLoad) (hp : s.eng.progLoaded = false) :
    step s =
      .next
        { s with
          eng := { s.eng with progLoaded := true, seq := .shift }
          we := { s.we with program := some .txn, divider := clockDivider s.eng.fPio }
          io := { s.io with trace := s.io.trace ++ [.request (.load .txn (clockDivider s.eng.fPio))] } } := by
  have hphase : txnLoadPhase s = (s.weLoad .txn (clockDivider s.eng.fPio)).setProgLoaded true := by
    simp [txnLoadPhase, hp]
  rw [step_of_seq h nofun, sequencerStep_txnLoad h, hphase]
  rfl

theorem step_shift {s : State} (h : s.eng.seq = .shift) :
    step s =
      .next
        { s with
          eng := { s.eng with seq := .shiftWait }
          we := { s.we with outstanding := some (.shift s.eng.txWord s.eng.txBits s.eng.rxBits) }
          io := { s.io with trace := s.io.trace ++ [.request (.shift s.eng.txWord s.eng.txBits s.eng.rxBits)] } } := by
  rw [step_of_seq h nofun, sequencerStep_shift h]
  rfl

/-- Settles O59: the rows of R151 in order, the two waits by their answers. -/
theorem sequencerTransitions : Obligations.SequencerTransitions := by
  intro s
  refine ⟨fun rest hidle hinbox => step_settled (fetch_request hidle hinbox),
    fun rest op P nt nr hidle hinbox => ⟨fun hpre => ?_, fun hpre => ?_⟩, step_claim, step_syncLoad,
    fun h => ⟨fun ha => ?_, fun w f ha => ⟨fun hc => ?_, fun hc => ?_⟩⟩, step_txnLoad_loaded, step_txnLoad, step_shift,
    fun h => ⟨fun ha => ?_, fun w ha => ?_⟩⟩
  · have hfetch := fetch_request hidle hinbox
    simp only [fetchInput, if_pos ((transactionPre_iff P nt nr).mpr hpre)] at hfetch
    obtain ⟨h8, hnt, -, hP⟩ := hpre
    exact ⟨txWordOf op P nt, txWordOf_toNat h8 hnt hP, step_settled hfetch⟩
  · have hfetch := fetch_request hidle hinbox
    simp only [fetchInput, if_neg (mt (transactionPre_iff P nt nr).mp hpre)] at hfetch
    exact step_fault hfetch
  · rw [step_of_seq h nofun, sequencerStep_syncWait_err h (syncAnswerPhase_err ha), weWait_state]
    simp only [finish, State.clearClock, popAnswer_eng]
    rfl
  · rw [step_of_seq h nofun, sequencerStep_syncWait_ret h (syncAnswerPhase_ok ha) hc, weWait_state]
    simp only [finish, State.storeSync, popAnswer_eng]
    rfl
  · rw [step_of_seq h nofun, sequencerStep_syncWait_txn h (syncAnswerPhase_ok ha) hc, weWait_state]
    simp only [State.setSeq, State.storeSync, popAnswer_eng]
  · rw [step_of_seq h nofun, sequencerStep_shiftWait h, shiftAnswerPhase_timeout ha, weWait_state]
    simp only [finish, State.clearClock, State.setProgLoaded, popAnswer_eng]
    rfl
  · refine ⟨receivedOf s.eng.rxBits w, BitVec.toNat_ofNat _ _, ?_⟩
    rw [step_of_seq h nofun, sequencerStep_shiftWait h, shiftAnswerPhase_done ha, weWait_state]
    simp only [finish, State.setRxWord, popAnswer_eng]
    rfl

/-! The phases do not read `E.seq` -/

theorem setSeq_self {s : State} {q : SeqState} (h : s.eng.seq = q) : s.setSeq q = s := by
  subst h
  rfl

theorem setSeq_setSeq (s : State) (p q : SeqState) : (s.setSeq p).setSeq q = s.setSeq q := rfl

theorem ensureClaimed_setSeq (s : State) (q : SeqState) : ensureClaimed (s.setSeq q) = (ensureClaimed s).setSeq q := by
  rw [ensureClaimed_state, ensureClaimed_state]
  rfl

theorem syncLoadPhase_setSeq (s : State) (q : SeqState) : syncLoadPhase (s.setSeq q) = (syncLoadPhase s).setSeq q := rfl

theorem txnLoadPhase_setSeq (s : State) (q : SeqState) : txnLoadPhase (s.setSeq q) = (txnLoadPhase s).setSeq q := by
  rw [txnLoadPhase_state, txnLoadPhase_state]
  rfl

theorem shiftPhase_setSeq (s : State) (q : SeqState) : shiftPhase (s.setSeq q) = (shiftPhase s).setSeq q := rfl

theorem weWait_setSeq (s : State) (q : SeqState) : (s.setSeq q).weWait.2 = s.weWait.2.setSeq q := by
  have hpop : (s.setSeq q).popAnswer = s.popAnswer.setSeq q := by
    cases h : s.io.weAnswers <;> simp [State.popAnswer, State.setSeq, h]
  rw [weWait_state, weWait_state, hpop]
  rfl

theorem syncAnswerPhase_setSeq (s : State) (q : SeqState) :
    syncAnswerPhase (s.setSeq q) = ((syncAnswerPhase s).1.setSeq q, (syncAnswerPhase s).2) := by
  cases h : syncOutcome s.nextAnswer with
  | none =>
    rw [syncAnswerPhase_err h, syncAnswerPhase_err (s := s.setSeq q) h, weWait_setSeq]
    rfl
  | some p =>
    rw [syncAnswerPhase_ok (w := p.1) (f := p.2) h, syncAnswerPhase_ok (s := s.setSeq q) (w := p.1) (f := p.2) h,
      weWait_setSeq]
    rfl

theorem shiftAnswerPhase_setSeq (s : State) (q : SeqState) :
    shiftAnswerPhase (s.setSeq q) = ((shiftAnswerPhase s).1.setSeq q, (shiftAnswerPhase s).2) := by
  cases h : s.nextAnswer with
  | done w =>
    rw [shiftAnswerPhase_done h, shiftAnswerPhase_done (s := s.setSeq q) h, weWait_setSeq]
    rfl
  | timeout =>
    rw [shiftAnswerPhase_timeout h, shiftAnswerPhase_timeout (s := s.setSeq q) h, weWait_setSeq]
    rfl

/-- Leaving the last state of an operation that began in SEQ_IDLE. -/
theorem finish_setSeq {s : State} (h : s.eng.seq = .idle) (q : SeqState) (r : Reply EngineResult) :
    finish (s.setSeq q) r = s.releaseLatches.pushResult r :=
  congrArg (State.pushResult r) (setSeq_self (s := s.releaseLatches) h)

/-! Runs of the sequencer -/

theorem stepMany_succ {s t : State} (h : step s = .next t) (n : Nat) : stepMany (n + 1) s = stepMany n t := by
  simp only [stepMany, h]

/-- One transition, the state it starts from written as a state of the procedure. -/
theorem stepMany_seq {s t : State} (q : SeqState) (hq : q ≠ .idle) (h : sequencerStep (s.setSeq q) = t) (n : Nat) :
    stepMany (n + 1) (s.setSeq q) = stepMany n t :=
  stepMany_succ (h ▸ step_of_seq (s := s.setSeq q) rfl hq) n

/-- From SEQ_TXN_LOAD three transitions are the rest of executeTransaction. -/
theorem stepMany_shiftTransaction {s : State} (h : s.eng.seq = .idle) :
    stepMany 3 (s.setSeq .txnLoad) =
      .next ((shiftTransaction s).1.releaseLatches.pushResult (mapReply .received (shiftTransaction s).2)) := by
  have hload : sequencerStep (s.setSeq .txnLoad) = (txnLoadPhase s).setSeq .shift := by
    rw [sequencerStep_txnLoad rfl, txnLoadPhase_setSeq, setSeq_setSeq]
  have hshift : sequencerStep ((txnLoadPhase s).setSeq .shift) = (shiftPhase (txnLoadPhase s)).setSeq .shiftWait := by
    rw [sequencerStep_shift rfl, shiftPhase_setSeq, setSeq_setSeq]
  have hidle : (shiftTransaction s).1.eng.seq = .idle := (engineFrame_shiftTransaction s).seq.trans h
  have hwait : sequencerStep ((shiftPhase (txnLoadPhase s)).setSeq .shiftWait) =
      (shiftTransaction s).1.releaseLatches.pushResult (mapReply .received (shiftTransaction s).2) := by
    rw [sequencerStep_shiftWait rfl, shiftAnswerPhase_setSeq]
    exact finish_setSeq hidle _ _
  rw [stepMany_seq .txnLoad nofun hload, stepMany_seq .shift nofun hshift, stepMany_seq .shiftWait nofun hwait, stepMany]

/-- From SEQ_SYNC_LOAD, with the claim made, one transition is the two requests of a synchronize. -/
theorem stepMany_syncLoad (n : Nat) (s : State) :
    stepMany (n + 1) (s.setSeq .syncLoad) = stepMany n ((syncLoadPhase s).setSeq .syncWait) :=
  stepMany_seq .syncLoad nofun (by rw [sequencerStep_syncLoad rfl, syncLoadPhase_setSeq, setSeq_setSeq]) n

/-- From SEQ_CLAIM one transition is the claim. -/
theorem stepMany_claim (n : Nat) (s : State) :
    stepMany (n + 1) (s.setSeq .claim) = stepMany n ((ensureClaimed s).setSeq (afterClaim s)) :=
  stepMany_seq .claim nofun (by rw [sequencerStep_claim rfl, ensureClaimed_setSeq, setSeq_setSeq]; rfl) n

/-- The synchronize failing ends either operation. -/
theorem stepMany_syncWait_err {s t : State} (h : t.eng.seq = .idle) {S : Status} (ha : syncAnswerPhase s = (t, .err S)) :
    stepMany 1 (s.setSeq .syncWait) = .next (t.releaseLatches.pushResult (.err S)) := by
  have hphase : syncAnswerPhase (s.setSeq .syncWait) = (t.setSeq .syncWait, .err S) := by
    rw [syncAnswerPhase_setSeq, ha]
  rw [stepMany_seq .syncWait nofun (sequencerStep_syncWait_err rfl hphase), stepMany, finish_setSeq h]

theorem stepMany_syncWait_ret {s t : State} (h : t.eng.seq = .idle) {f : Rat} (ha : syncAnswerPhase s = (t, .ok f))
    (hc : s.eng.cont = .ret) :
    stepMany 1 (s.setSeq .syncWait) = .next (t.releaseLatches.pushResult (.ok (.frequency f))) := by
  have hphase : syncAnswerPhase (s.setSeq .syncWait) = (t.setSeq .syncWait, .ok f) := by
    rw [syncAnswerPhase_setSeq, ha]
  rw [stepMany_seq .syncWait nofun (sequencerStep_syncWait_ret rfl hphase hc), stepMany, finish_setSeq h]

theorem stepMany_syncWait_txn {s t : State} {f : Rat} (ha : syncAnswerPhase s = (t, .ok f)) (hc : s.eng.cont = .txn)
    (n : Nat) : stepMany (n + 1) (s.setSeq .syncWait) = stepMany n (t.setSeq .txnLoad) := by
  have hphase : syncAnswerPhase (s.setSeq .syncWait) = (t.setSeq .syncWait, .ok f) := by
    rw [syncAnswerPhase_setSeq, ha]
  exact stepMany_seq .syncWait nofun (sequencerStep_syncWait_txn rfl hphase hc) n

/-! The two operations -/

/-- A bare synchronize in four transitions. -/
theorem stepMany_synchronize {s : State} {rest : List Input} (h : s.eng.seq = .idle)
    (hinbox : s.io.inbox = .synchronize :: rest) :
    stepMany 4 s =
      .next ((synchronize (withInbox rest s)).1.pushResult
        (mapReply .frequency (synchronize (withInbox rest s)).2)) := by
  have hframe := engineFrame_measureClock ((withInbox rest s).setCont .ret)
  have hidle : (measureClock ((withInbox rest s).setCont .ret)).1.eng.seq = .idle := hframe.seq.trans h
  have hstart : step s = .next (((withInbox rest s).setCont .ret).setSeq .claim) :=
    step_settled (fetch_request h hinbox)
  have hafter : afterClaim ((withInbox rest s).setCont .ret) = .syncLoad := if_pos (.inl rfl)
  have hcont : (syncLoadPhase (ensureClaimed ((withInbox rest s).setCont .ret))).eng.cont = .ret := by
    simp [syncLoadPhase_state]
  rw [stepMany_succ hstart, stepMany_claim, hafter, stepMany_syncLoad]
  rcases ha : measureClock ((withInbox rest s).setCont .ret) with ⟨t, f | S⟩ <;> rw [ha] at hidle
  · rw [stepMany_syncWait_ret hidle ha hcont, synchronize, ha]
    rfl
  · rw [stepMany_syncWait_err hidle ha, synchronize, ha]
    rfl

theorem transactBody_measured {op : Byte} {P nt nr : Nat} {s t : State} {f : Rat} (hk : s.eng.clockKnown = false)
    (ha : measureClock (ensureClaimed (s.latch op P nt nr)) = (t, .ok f)) :
    transactBody op P nt nr s = shiftTransaction t := by simp [transactBody, hk, ha]

theorem transactBody_not_measured {op : Byte} {P nt nr : Nat} {s t : State} {S : Status}
    (hk : s.eng.clockKnown = false) (ha : measureClock (ensureClaimed (s.latch op P nt nr)) = (t, .err S)) :
    transactBody op P nt nr s = (t, .err S) := by simp [transactBody, hk, ha]

/-- A bare executeTransaction in at most seven transitions, by the three cases of its body. -/
theorem stepMany_transact {s : State} {rest : List Input} {op : Byte} {P nt nr : Nat} (h : s.eng.seq = .idle)
    (hinbox : s.io.inbox = .transaction op P nt nr :: rest) (hpre : transactionPre P nt nr = true) :
    ∃ n, n ≤ 7 ∧
      stepMany n s =
        .next ((transact op P nt nr (withInbox rest s)).1.pushResult
          (mapReply .received (transact op P nt nr (withInbox rest s)).2)) := by
  have hfetch := fetch_request h hinbox
  simp only [fetchInput, if_pos hpre] at hfetch
  have hstart : step s = .next (((withInbox rest s).latch op P nt nr).setSeq .claim) := step_settled hfetch
  have hidle : (ensureClaimed ((withInbox rest s).latch op P nt nr)).eng.seq = .idle := by
    rw [ensureClaimed_eng]
    exact h
  have hagain := ensureClaimed_of_claimed (s := ensureClaimed ((withInbox rest s).latch op P nt nr)) (by simp)
  have hcont : (syncLoadPhase (ensureClaimed ((withInbox rest s).latch op P nt nr))).eng.cont = .txn := by
    simp [syncLoadPhase_state]
  have hmeasured := (engineFrame_measureClock (ensureClaimed ((withInbox rest s).latch op P nt nr))).seq.trans hidle
  cases hk : s.eng.clockKnown with
  | true =>
    have hafter : afterClaim ((withInbox rest s).latch op P nt nr) = .txnLoad := by
      simp [afterClaim, withInbox, hk]
    refine ⟨5, by decide, ?_⟩
    rw [stepMany_succ hstart, stepMany_claim, hafter, stepMany_shiftTransaction hidle, transact,
      transactBody_of_known (s := withInbox rest s) hk]
    rfl
  | false =>
    have hafter : afterClaim ((withInbox rest s).latch op P nt nr) = .syncLoad := by
      simp [afterClaim, withInbox, hk]
    rcases ha : measureClock (ensureClaimed ((withInbox rest s).latch op P nt nr)) with ⟨t, f | S⟩ <;>
      rw [ha] at hmeasured
    · refine ⟨7, le_rfl, ?_⟩
      have hphase := ha
      rw [measureClock, hagain] at hphase
      have hbody := transactBody_measured (s := withInbox rest s) hk ha
      rw [stepMany_succ hstart, stepMany_claim, hafter, stepMany_syncLoad, stepMany_syncWait_txn hphase hcont,
        stepMany_shiftTransaction hmeasured, transact, hbody]
      rfl
    · refine ⟨4, by decide, ?_⟩
      have hphase := ha
      rw [measureClock, hagain] at hphase
      have hbody := transactBody_not_measured (s := withInbox rest s) hk ha
      rw [stepMany_succ hstart, stepMany_claim, hafter, stepMany_syncLoad, stepMany_syncWait_err hmeasured hphase,
        transact, hbody]
      rfl

/-- Settles O60: each operation's transitions are its phases, and the result is the procedure's. -/
theorem sequencerRefinesProcedures : Obligations.SequencerRefinesProcedures := by
  constructor
  · intro s rest op P nt nr hidle hinbox h8 hnt hnr hP
    obtain ⟨n, hn, hrun⟩ := stepMany_transact hidle hinbox ((transactionPre_iff P nt nr).mpr ⟨h8, hnt, hnr, hP⟩)
    refine ⟨n, hn, (transact op P nt nr (withInbox rest s)).1, (transact op P nt nr (withInbox rest s)).2,
      executeTransaction_within op h8 hnt hnr hP (withInbox rest s), hrun.trans ?_⟩
    cases (transact op P nt nr (withInbox rest s)).2 <;> rfl
  · intro s rest hidle hinbox
    refine (stepMany_synchronize hidle hinbox).trans ?_
    unfold withInbox
    cases (synchronize { s with io := { s.io with inbox := rest } }).2 <;> rfl

end Sys2Proof.Proofs
end

section
/-! PROOFS. One step as a chain of the engine's phases (spec/40_engine_core.md R151): what any step does to the engine, said
once, with the position of the sequencer before and after; every invariant over steps is then kept by each phase. -/

namespace Sys2Proof.Proofs

open Sys2Proof.Machine Sys2Proof.Laws

/-! The phases -/

/-- One phase of the engine from a state that is ready for it, or a change that does not concern the engine. -/
inductive Phase : State → State → Prop
  | claim {s : State} (hw : s.we.outstanding = none) : Phase s (ensureClaimed s)
  | syncLoad {s : State} (hw : s.we.outstanding = none) (hc : s.eng.claimed = true) : Phase s (syncLoadPhase s)
  | syncAnswer {s : State} (hw : s.we.outstanding = some .sync) (hp : s.eng.progLoaded = false) :
      Phase s (syncAnswerPhase s).1
  | txnLoad {s : State} (hw : s.we.outstanding = none) (hc : s.eng.claimed = true) (hk : s.eng.clockKnown = true) :
      Phase s (txnLoadPhase s)
  | shift {s : State} (hw : s.we.outstanding = none) (hc : s.eng.claimed = true) (hk : s.eng.clockKnown = true)
      (hp : s.eng.progLoaded = true) : Phase s (shiftPhase s)
  | shiftAnswer {s : State} {tx : Word} {nt nr : BitVec 6} (hw : s.we.outstanding = some (.shift tx nt nr)) :
      Phase s (shiftAnswerPhase s).1
  | clearClock (s : State) : Phase s s.clearClock
  | elsewhere {s t : State} (h : SameEngine s t) : Phase s t

/-- A chain of phases. -/
abbrev Phases : State → State → Prop := Relation.ReflTransGen Phase

theorem phases_elsewhere {s t u : State} (h : Phases s t) (k : SameEngine t u) : Phases s u := h.tail (.elsewhere k)

theorem sameEngine_releaseLatches (s : State) : SameEngine s s.releaseLatches := ⟨rfl, rfl, rfl, rfl, rfl, rfl⟩

theorem sameEngine_setSeq (s : State) (q : SeqState) : SameEngine s (s.setSeq q) := ⟨rfl, rfl, rfl, rfl, rfl, rfl⟩

theorem sameEngine_finish (s : State) (r : Reply EngineResult) : SameEngine s (finish s r) := ⟨rfl, rfl, rfl, rfl, rfl, rfl⟩

theorem syncAnswerPhase_outstanding (s : State) : (syncAnswerPhase s).1.we.outstanding = none := by
  cases h : syncOutcome s.nextAnswer with
  | none => rw [syncAnswerPhase_err h]; rfl
  | some p => rw [syncAnswerPhase_ok (w := p.1) (f := p.2) h]; rfl

theorem shiftAnswerPhase_outstanding (s : State) : (shiftAnswerPhase s).1.we.outstanding = none := by
  cases h : s.nextAnswer with
  | done w => rw [shiftAnswerPhase_done h]; rfl
  | timeout => rw [shiftAnswerPhase_timeout h]; rfl

theorem afterLoad_outstanding (s : State) : (afterLoad s).outstanding = s.we.outstanding := by
  rw [afterLoad]
  split <;> rfl

/-! The engine operations as chains of phases -/

theorem phases_measureClock {s : State} (hw : s.we.outstanding = none) : Phases s (measureClock s).1 := by
  refine .tail (.tail (.single (.claim hw)) (.syncLoad ?_ ?_)) (.syncAnswer rfl rfl)
  · rw [ensureClaimed_we, hw]
  · rw [ensureClaimed_eng]

theorem phases_shiftTransaction {s : State} (hw : s.we.outstanding = none) (hc : s.eng.claimed = true)
    (hk : s.eng.clockKnown = true) : Phases s (shiftTransaction s).1 := by
  refine .tail (.tail (.single (.txnLoad hw hc hk)) (.shift ?_ ?_ ?_ ?_)) (.shiftAnswer rfl)
  · rw [txnLoadPhase_state]
    exact (afterLoad_outstanding s).trans hw
  · rw [txnLoadPhase_state]
    exact hc
  · rw [txnLoadPhase_state]
    exact hk
  · rw [txnLoadPhase_state]

theorem measureClock_outstanding (s : State) : (measureClock s).1.we.outstanding = none :=
  syncAnswerPhase_outstanding _

theorem shiftTransaction_outstanding (s : State) : (shiftTransaction s).1.we.outstanding = none :=
  shiftAnswerPhase_outstanding _

theorem phases_transact {s : State} (hw : s.we.outstanding = none) (op : Byte) (P nt nr : Nat) :
    Phases s (transact op P nt nr s).1 ∧ (transact op P nt nr s).1.we.outstanding = none := by
  have hstart : Phases s (ensureClaimed (s.latch op P nt nr)) :=
    Relation.ReflTransGen.tail (b := s.latch op P nt nr) (.single (.elsewhere ⟨rfl, rfl, rfl, rfl, rfl, rfl⟩)) (.claim hw)
  have hclaimed : (ensureClaimed (s.latch op P nt nr)).eng.claimed = true := by rw [ensureClaimed_eng]
  have hw' : (ensureClaimed (s.latch op P nt nr)).we.outstanding = none := by rw [ensureClaimed_we, latch_we, hw]
  have hmeasure := hstart.trans (phases_measureClock hw')
  rw [transact]
  rcases transactBody_cases op P nt nr s with ⟨hk, h⟩ | ⟨w, f, _, ha, h⟩ | ⟨_, _, h⟩ <;> rw [h]
  · have hk' : (ensureClaimed (s.latch op P nt nr)).eng.clockKnown = true := by rw [ensureClaimed_eng]; exact hk
    exact ⟨phases_elsewhere (hstart.trans (phases_shiftTransaction hw' hclaimed hk')) (sameEngine_releaseLatches _),
      shiftTransaction_outstanding _⟩
  · have hn : (ensureClaimed (s.latch op P nt nr)).nextAnswer = s.nextAnswer := nextAnswer_congr (by simp) (by simp)
    have hok := measureClock_ok (hn ▸ ha)
    have hc' : (measureClock (ensureClaimed (s.latch op P nt nr))).1.eng.claimed = true := by rw [hok]
    have hk' : (measureClock (ensureClaimed (s.latch op P nt nr))).1.eng.clockKnown = true := by rw [hok]
    exact ⟨phases_elsewhere (hmeasure.trans (phases_shiftTransaction (measureClock_outstanding _) hc' hk'))
      (sameEngine_releaseLatches _), shiftTransaction_outstanding _⟩
  · exact ⟨phases_elsewhere hmeasure (sameEngine_releaseLatches _), measureClock_outstanding _⟩

theorem phases_synchronize {s : State} (hw : s.we.outstanding = none) :
    Phases s (synchronize s).1 ∧ (synchronize s).1.we.outstanding = none := by
  have hcont : Phases s (s.setCont .ret) := .single (.elsewhere ⟨rfl, rfl, rfl, rfl, rfl, rfl⟩)
  exact ⟨phases_elsewhere (hcont.trans (phases_measureClock (s := s.setCont .ret) hw)) (sameEngine_releaseLatches _),
    measureClock_outstanding _⟩

/-- Every chain of engine operations is a chain of phases, with no request outstanding at its end. -/
theorem phases_of_moves {s t : State} (hw : s.we.outstanding = none) (h : EngineMoves s t) :
    Phases s t ∧ t.we.outstanding = none := by
  induction h with
  | refl => exact ⟨.refl, hw⟩
  | tail _ hmove ih =>
    obtain ⟨hphases, hw'⟩ := ih
    cases hmove with
    | transact op P nt nr =>
      obtain ⟨hmore, hw''⟩ := phases_transact hw' op P nt nr
      exact ⟨hphases.trans hmore, hw''⟩
    | synchronize =>
      obtain ⟨hmore, hw''⟩ := phases_synchronize hw'
      exact ⟨hphases.trans hmore, hw''⟩
    | clearClock => exact ⟨hphases.tail (.clearClock _), hw'⟩
    | elsewhere hsame => exact ⟨hphases.tail (.elsewhere hsame), by rw [hsame.we, hw']⟩

/-! A step in SEQ_IDLE -/

/-- The state after taking a request: without it in the inbox, a frame being in the command frame buffer. -/
inductive Taken (s : State) : State → Prop
  | plain (rest : List Input) : Taken s (withInbox rest s)
  | frame (rest : List Input) (bytes : List Byte) : Taken s ((withInbox rest s).recordFrame bytes)

/-- The next states of a step in SEQ_IDLE. -/
inductive IdleStep (s : State) : State → Prop
  /-- No request. -/
  | waits : IdleStep s s
  /-- The request is an instruction. -/
  | runs {i : Instr} {u t : State} (hu : Taken s u) (h : exec i u = .next t) : IdleStep s t
  /-- A frame that is no instruction is answered. -/
  | answersFrame {u : State} (hu : Taken s u) (S : Status) {n : Nat} (hn : n ≤ 7) : IdleStep s (u.respondErr S n)
  /-- A BDM word that is no instruction is answered. -/
  | answersWord {u : State} (hu : Taken s u) (r : Reply EngineResult) : IdleStep s (u.pushResult r)
  /-- A bare synchronize begins. -/
  | startsSynchronize {u : State} (hu : Taken s u) : IdleStep s (startSynchronize u)
  /-- A bare executeTransaction begins. -/
  | startsTransaction {u : State} (hu : Taken s u) (op : Byte) (P nt nr : Nat) : IdleStep s (startTransaction op P nt nr u)

theorem hostOp_payloadLen_le (o : HostOp) : o.payloadLen ≤ 7 := by cases o <;> decide

theorem idleStep_rejectFrame {s u t : State} {e : DecodeError} (hu : Taken s u) (h : rejectFrame e u = .settled t) :
    IdleStep s t := by
  cases e with
  | hostDutyBroken => cases h
  | shortParams o =>
    cases h
    exact .answersFrame hu .illegalParams (hostOp_payloadLen_le o)
  | _ =>
    cases h
    exact .answersFrame hu .fail (Nat.zero_le 7)

theorem idleStep_rejectBdm {s u t : State} {e : DecodeError} (hu : Taken s u) (h : rejectBdm e u = .settled t) :
    IdleStep s t := by
  cases e <;> cases h <;> exact .answersWord hu _

theorem rejectFrame_ne_run (e : DecodeError) (u : State) (i : Instr) (t : State) : rejectFrame e u ≠ .run i t := by
  cases e <;> nofun

theorem rejectBdm_ne_run (e : DecodeError) (u : State) (i : Instr) (t : State) : rejectBdm e u ≠ .run i t := by
  cases e <;> nofun

/-- What a step found: an instruction, or its next state at once. -/
theorem step_next_cases {s t : State} (h : step s = .next t) :
    (∃ i u, fetch s = .run i u ∧ exec i u = .next t) ∨ fetch s = .settled t := by
  unfold step at h
  split at h
  · next i u hf => exact .inl ⟨i, u, hf, h⟩
  · next u hf =>
    cases h
    exact .inr hf
  · cases h
  · cases h

theorem fetch_run_taken {s u : State} {i : Instr} (hidle : s.eng.seq = .idle) (h : fetch s = .run i u) : Taken s u := by
  cases hinbox : s.io.inbox with
  | nil =>
    rw [fetch_waiting hidle hinbox] at h
    cases h
  | cons inp rest =>
    rw [fetch_request hidle hinbox] at h
    cases inp with
    | frame bytes =>
      cases hd : decodeFrame bytes with
      | ok j =>
        rw [fetchInput_frame hd] at h
        cases h
        exact .frame rest bytes
      | error e =>
        rw [fetchInput_frame_error hd] at h
        exact absurd h (rejectFrame_ne_run _ _ _ _)
    | bdm bytes =>
      cases hd : decodeBdm bytes with
      | ok p =>
        rw [fetchInput_bdm (i := p.1) (rest := p.2) hd] at h
        cases h
        exact .plain rest
      | error e =>
        rw [fetchInput_bdm_error hd] at h
        exact absurd h (rejectBdm_ne_run _ _ _ _)
    | synchronize => cases h
    | transaction op P nt nr =>
      simp only [fetchInput] at h
      split at h <;> cases h

theorem fetch_settled_idleStep {s t : State} (hidle : s.eng.seq = .idle) (h : fetch s = .settled t) : IdleStep s t := by
  cases hinbox : s.io.inbox with
  | nil =>
    rw [fetch_waiting hidle hinbox] at h
    cases h
    exact .waits
  | cons inp rest =>
    rw [fetch_request hidle hinbox] at h
    cases inp with
    | frame bytes =>
      cases hd : decodeFrame bytes with
      | ok j =>
        rw [fetchInput_frame hd] at h
        cases h
      | error e =>
        rw [fetchInput_frame_error hd] at h
        exact idleStep_rejectFrame (.frame rest bytes) h
    | bdm bytes =>
      cases hd : decodeBdm bytes with
      | ok p =>
        rw [fetchInput_bdm (i := p.1) (rest := p.2) hd] at h
        cases h
      | error e =>
        rw [fetchInput_bdm_error hd] at h
        exact idleStep_rejectBdm (.plain rest) h
    | synchronize =>
      cases h
      exact .startsSynchronize (.plain rest)
    | transaction op P nt nr =>
      simp only [fetchInput] at h
      split at h <;> cases h
      exact .startsTransaction (.plain rest) op P nt nr

theorem step_idleStep {s t : State} (hidle : s.eng.seq = .idle) (h : step s = .next t) : IdleStep s t := by
  rcases step_next_cases h with ⟨i, u, hf, hx⟩ | hf
  · exact .runs (fetch_run_taken hidle hf) hx
  · exact fetch_settled_idleStep hidle hf

/-! Every step as a chain of phases -/

theorem sameEngine_taken {s u : State} (h : Taken s u) : SameEngine s u := by
  cases h <;> exact ⟨rfl, rfl, rfl, rfl, rfl, rfl⟩

theorem taken_seq {s u : State} (h : Taken s u) : u.eng.seq = s.eng.seq := by cases h <;> rfl

theorem positionInv_idle {s : State} (h : s.eng.seq = .idle) : positionInv s ↔ s.we.outstanding = none := by
  rw [positionInv, h]

theorem phases_taken {s u : State} (h : Taken s u) : Phases s u := .single (.elsewhere (sameEngine_taken h))

/-- A step in SEQ_IDLE ends with no request outstanding, in SEQ_IDLE or with an operation begun. -/
theorem phases_idleStep {s t : State} (hidle : s.eng.seq = .idle) (hw : s.we.outstanding = none) (h : IdleStep s t) :
    Phases s t ∧ positionInv t := by
  have hpos {u : State} (hu : u.eng.seq = .idle) (hwu : u.we.outstanding = none) : positionInv u :=
    (positionInv_idle hu).mpr hwu
  have htaken {u : State} (hu : Taken s u) : u.eng.seq = .idle ∧ u.we.outstanding = none :=
    ⟨(taken_seq hu).trans hidle, by rw [(sameEngine_taken hu).we, hw]⟩
  cases h with
  | waits => exact ⟨.refl, hpos hidle hw⟩
  | runs hu hx =>
    obtain ⟨hseq, hwu⟩ := htaken hu
    obtain ⟨hphases, hwt⟩ := phases_of_moves hwu (exec_moves hx)
    exact ⟨(phases_taken hu).trans hphases, hpos ((exec_configurationKept hx).seq.trans hseq) hwt⟩
  | answersFrame hu S hn =>
    obtain ⟨hseq, hwu⟩ := htaken hu
    exact ⟨phases_elsewhere (phases_taken hu) ⟨rfl, rfl, rfl, rfl, rfl, rfl⟩, hpos hseq hwu⟩
  | answersWord hu r =>
    obtain ⟨hseq, hwu⟩ := htaken hu
    exact ⟨phases_elsewhere (phases_taken hu) ⟨rfl, rfl, rfl, rfl, rfl, rfl⟩, hpos hseq hwu⟩
  | startsSynchronize hu =>
    exact ⟨phases_elsewhere (phases_taken hu) ⟨rfl, rfl, rfl, rfl, rfl, rfl⟩, (htaken hu).2⟩
  | startsTransaction hu op P nt nr =>
    exact ⟨phases_elsewhere (phases_taken hu) ⟨rfl, rfl, rfl, rfl, rfl, rfl⟩, (htaken hu).2⟩

/-- The end of a wait of the sequencer, whatever the result. -/
theorem positionInv_finish {s : State} (h : s.we.outstanding = none) (r : Reply EngineResult) : positionInv (finish s r) := h

/-- The position after SEQ_CLAIM: the load of either program, the second only with the clock known. -/
theorem positionInv_afterClaim {s : State} (hw : s.we.outstanding = none) :
    positionInv ((ensureClaimed s).setSeq (afterClaim s)) := by
  rw [afterClaim]
  split
  · exact ⟨by simp [hw], by simp⟩
  · next hcond =>
    have hk : s.eng.clockKnown = true := by simpa using fun h => hcond (.inr h)
    exact ⟨by simp [hw], by simp, by simp [hk]⟩

/-- A transition of the sequencer is one phase, and leaves the position it says. -/
theorem phases_sequencerStep {s : State} (h : positionInv s) :
    Phases s (sequencerStep s) ∧ positionInv (sequencerStep s) := by
  unfold positionInv at h
  cases hseq : s.eng.seq <;> rw [hseq] at h
  case idle =>
    have hstay : sequencerStep s = s := by simp only [sequencerStep, hseq]
    rw [hstay]
    exact ⟨.refl, (positionInv_idle hseq).mpr h⟩
  case claim =>
    rw [sequencerStep_claim hseq]
    exact ⟨phases_elsewhere (.single (.claim h)) (sameEngine_setSeq _ _), positionInv_afterClaim h⟩
  case syncLoad =>
    obtain ⟨hw, hc⟩ := h
    rw [sequencerStep_syncLoad hseq]
    exact ⟨phases_elsewhere (.single (.syncLoad hw hc)) (sameEngine_setSeq _ _), rfl, hc, rfl⟩
  case syncWait =>
    obtain ⟨hw, hc, hp⟩ := h
    have hphase : Phases s (syncAnswerPhase s).1 := .single (.syncAnswer hw hp)
    have hnone := syncAnswerPhase_outstanding s
    cases ha : syncOutcome s.nextAnswer with
    | none =>
      rw [syncAnswerPhase_err ha] at hphase hnone
      rw [sequencerStep_syncWait_err hseq (syncAnswerPhase_err ha)]
      exact ⟨phases_elsewhere hphase (sameEngine_finish _ _), positionInv_finish hnone _⟩
    | some p =>
      have hok := syncAnswerPhase_ok (w := p.1) (f := p.2) ha
      rw [hok] at hphase hnone
      cases hcont : s.eng.cont with
      | ret =>
        rw [sequencerStep_syncWait_ret hseq hok hcont]
        exact ⟨phases_elsewhere hphase (sameEngine_finish _ _), positionInv_finish hnone _⟩
      | txn =>
        rw [sequencerStep_syncWait_txn hseq hok hcont]
        exact ⟨phases_elsewhere hphase (sameEngine_setSeq _ _), hnone, by simp [hc], rfl⟩
  case txnLoad =>
    obtain ⟨hw, hc, hk⟩ := h
    rw [sequencerStep_txnLoad hseq]
    refine ⟨phases_elsewhere (.single (.txnLoad hw hc hk)) (sameEngine_setSeq _ _), ?_⟩
    rw [txnLoadPhase_state]
    exact ⟨(afterLoad_outstanding s).trans hw, hc, hk, rfl⟩
  case shift =>
    obtain ⟨hw, hc, hk, hp⟩ := h
    rw [sequencerStep_shift hseq]
    exact ⟨phases_elsewhere (.single (.shift hw hc hk hp)) (sameEngine_setSeq _ _), ⟨_, _, _, rfl⟩, hc, hk, hp⟩
  case shiftWait =>
    obtain ⟨⟨tx, nt, nr, hw⟩, -, -, -⟩ := h
    rw [sequencerStep_shiftWait hseq]
    exact ⟨phases_elsewhere (.single (.shiftAnswer hw)) (sameEngine_finish _ _),
      positionInv_finish (shiftAnswerPhase_outstanding s) _⟩

/-- Every step from a state whose flags fit its position is a chain of phases to one whose flags do. -/
theorem step_phases {s t : State} (hpos : positionInv s) (h : step s = .next t) : Phases s t ∧ positionInv t := by
  by_cases hidle : s.eng.seq = .idle
  · exact phases_idleStep hidle ((positionInv_idle hidle).mp hpos) (step_idleStep hidle h)
  · rw [step_busy hidle] at h
    cases h
    exact phases_sequencerStep hpos

end Sys2Proof.Proofs
end

section
/-! PROOFS. The invariants of spec/10_state.md R37 and the guarantees of spec/40_engine_core.md R167: each phase keeps them. -/

namespace Sys2Proof.Proofs

open Sys2Proof.Machine Sys2Proof.Laws

/-! The engine invariants -/

/-- (I1) to (I4): the invariants of R37 that do not speak of the sequencer's position. -/
structure EngineCore (s : State) : Prop where
  claimed : s.eng.progLoaded = true → s.eng.claimed = true
  loaded : s.eng.progLoaded = true →
    0 < s.eng.fPio ∧ s.we.program = some .txn ∧ s.we.divider = clockDivider s.eng.fPio
  known : s.eng.clockKnown = true → 0 < s.eng.fPio ∧ dividerLegal (clockDivider s.eng.fPio) = true
  measured : s.eng.fPio = 0 ∨ ∃ w, tickFrequency w = some s.eng.fPio

theorem engineInv_iff (s : State) : EngineInv s ↔ EngineCore s ∧ positionInv s :=
  ⟨fun h => ⟨{ h with }, h.position⟩, fun ⟨hcore, hpos⟩ => { hcore with position := hpos }⟩

/-- The invariants read the flags, the frequency and the WE's program and divider only. -/
theorem engineCore_congr {s t : State} (h : EngineCore s) (hc : t.eng.claimed = s.eng.claimed)
    (hp : t.eng.progLoaded = s.eng.progLoaded) (hk : t.eng.clockKnown = s.eng.clockKnown)
    (hf : t.eng.fPio = s.eng.fPio) (hprog : t.we.program = s.we.program) (hdiv : t.we.divider = s.we.divider) :
    EngineCore t := by
  obtain ⟨hclaimed, hloaded, hknown, hmeasured⟩ := h
  constructor
  · rwa [hp, hc]
  · rwa [hp, hf, hprog, hdiv]
  · rwa [hk, hf]
  · rwa [hf]

/-- An accepted tick count has a positive frequency (R135 (b)). -/
theorem tickFrequency_pos {w : Word} {f : Rat} (h : tickFrequency w = some f) : 0 < f := by
  obtain ⟨hne, -, rfl, -⟩ := tickFrequency_some h
  have hw : 0 < w.toNat := Nat.pos_of_ne_zero fun h0 => hne (BitVec.eq_of_toNat_eq h0)
  have hcast : (0 : Rat) < w.toNat := Nat.cast_pos.mpr hw
  rw [syncFrequency_eq]
  positivity

theorem engineCore_claim {s : State} (h : EngineCore s) : EngineCore (ensureClaimed s) := by
  rw [ensureClaimed_state]
  exact ⟨fun _ => rfl, h.loaded, h.known, h.measured⟩

theorem engineCore_syncLoad {s : State} (h : EngineCore s) : EngineCore (syncLoadPhase s) := by
  rw [syncLoadPhase_state]
  exact ⟨nofun, nofun, h.known, h.measured⟩

theorem engineCore_clearClock {s : State} (h : EngineCore s) : EngineCore s.clearClock :=
  ⟨h.claimed, h.loaded, nofun, h.measured⟩

theorem engineCore_weWait {s : State} (h : EngineCore s) : EngineCore s.weWait.2 :=
  engineCore_congr h (by simp) (by simp) (by simp) (by simp) (by simp) (by simp)

theorem engineCore_syncAnswer {s : State} (h : EngineCore s) (hp : s.eng.progLoaded = false) :
    EngineCore (syncAnswerPhase s).1 := by
  cases ha : syncOutcome s.nextAnswer with
  | none =>
    rw [syncAnswerPhase_err ha]
    exact engineCore_clearClock (engineCore_weWait h)
  | some p =>
    obtain ⟨w, f⟩ := p
    obtain ⟨-, hf⟩ := syncOutcome_some ha
    obtain ⟨-, -, -, hlegal⟩ := tickFrequency_some hf
    have hunloaded : (s.weWait.2.storeSync w f).eng.progLoaded = false := by simp [hp]
    rw [syncAnswerPhase_ok ha]
    refine ⟨fun hl => ?_, fun hl => ?_, fun _ => ⟨tickFrequency_pos hf, hlegal⟩, .inr ⟨w, hf⟩⟩ <;>
      rw [hunloaded] at hl <;> cases hl

theorem engineCore_txnLoad {s : State} (h : EngineCore s) (hc : s.eng.claimed = true) (hk : s.eng.clockKnown = true) :
    EngineCore (txnLoadPhase s) := by
  have hport : (afterLoad s).program = some .txn ∧ (afterLoad s).divider = clockDivider s.eng.fPio := by
    rw [afterLoad]
    split
    · next hp => exact (h.loaded hp).2
    · exact ⟨rfl, rfl⟩
  rw [txnLoadPhase_state]
  exact ⟨fun _ => hc, fun _ => ⟨(h.known hk).1, hport⟩, h.known, h.measured⟩

theorem engineCore_shiftAnswer {s : State} (h : EngineCore s) : EngineCore (shiftAnswerPhase s).1 := by
  have hwait := engineCore_weWait h
  cases ha : s.nextAnswer with
  | done w =>
    rw [shiftAnswerPhase_done ha]
    exact engineCore_congr hwait rfl rfl rfl rfl rfl rfl
  | timeout =>
    rw [shiftAnswerPhase_timeout ha]
    exact ⟨nofun, nofun, nofun, hwait.measured⟩

theorem engineCore_phase {s t : State} (h : EngineCore s) (hphase : Phase s t) : EngineCore t := by
  cases hphase with
  | claim _ => exact engineCore_claim h
  | syncLoad _ _ => exact engineCore_syncLoad h
  | syncAnswer _ hp => exact engineCore_syncAnswer h hp
  | txnLoad _ hc hk => exact engineCore_txnLoad h hc hk
  | shift _ _ _ _ => exact engineCore_congr h rfl rfl rfl rfl rfl rfl
  | shiftAnswer _ => exact engineCore_shiftAnswer h
  | clearClock => exact engineCore_clearClock h
  | elsewhere hs =>
    exact engineCore_congr h hs.claimed hs.progLoaded hs.clockKnown hs.fPio (congrArg _ hs.we) (congrArg _ hs.we)

/-- What every phase keeps, every chain of phases keeps. -/
theorem phases_keep {I : State → Prop} (hkeep : ∀ s t, I s → Phase s t → I t) {s t : State} (h : Phases s t) (hs : I s) :
    I t := by
  induction h with
  | refl => exact hs
  | tail _ hphase ih => exact hkeep _ _ ih hphase

/-- Settles O55: a step is a chain of phases, each of which keeps (I1) to (I4); (I5) is the position. -/
theorem engineInvariantsKept : Obligations.EngineInvariantsKept := by
  intro s t hs h
  obtain ⟨hcore, hpos⟩ := (engineInv_iff s).mp hs
  obtain ⟨hphases, hpos'⟩ := step_phases hpos h
  exact (engineInv_iff t).mpr ⟨phases_keep (fun _ _ => engineCore_phase) hphases hcore, hpos'⟩

/-! The guarantees over the request trace -/

/-- What R167 asks of a trace and a state with it, the sequencer's position aside. -/
structure TraceCore (s : State) : Prop where
  ok : TraceOk s.io.trace
  claimed : (viewOf s.io.trace).claimed = s.eng.claimed
  unclaimed : s.eng.claimed = false → (viewOf s.io.trace).last = none
  program : (viewOf s.io.trace).loaded.map Prod.fst = s.we.program
  divider : ∀ p d, (viewOf s.io.trace).loaded = some (p, d) → s.we.divider = d
  progLoaded : s.eng.progLoaded = true → s.we.program = some .txn ∧ (viewOf s.io.trace).fresh = true
  clockKnown : s.eng.clockKnown = true → (viewOf s.io.trace).synced = true
  fPio : s.eng.fPio = match (viewOf s.io.trace).ticks with | none => 0 | some w => syncFrequency w.toNat
  waiting : (viewOf s.io.trace).waiting = s.we.outstanding.isSome
  pending : s.we.outstanding.isSome = true → (viewOf s.io.trace).last = s.we.outstanding
  synced : (viewOf s.io.trace).synced = true → (viewOf s.io.trace).ticks.isSome = true

theorem traceInv_iff (s : State) : TraceInv s ↔ TraceCore s ∧ positionInv s :=
  ⟨fun h => ⟨{ h with }, h.position⟩, fun ⟨hcore, hpos⟩ => { hcore with position := hpos }⟩

theorem viewOf_snoc (trace : List WeEvent) (e : WeEvent) : viewOf (trace ++ [e]) = observe (viewOf trace) e := by
  rw [viewOf_append]
  rfl

/-- The guarantees read the trace, the flags, the frequency and the WE port only. -/
theorem traceCore_sameEngine {s t : State} (h : TraceCore s) (hs : SameEngine s t) : TraceCore t := by
  obtain ⟨hc, hp, hk, hf, hwe, htrace⟩ := hs
  obtain ⟨h1, h2, h3, h4, h5, h6, h7, h8, h9, h10, h11⟩ := h
  constructor <;> simpa only [hc, hp, hk, hf, hwe, htrace]

/-- WE_CLAIM is the first request (R167 (a)). -/
theorem traceCore_claim {s : State} (h : TraceCore s) (hw : s.we.outstanding = none) : TraceCore (ensureClaimed s) := by
  cases hc : s.eng.claimed with
  | true => rwa [ensureClaimed_of_claimed hc]
  | false =>
    have hview := viewOf_snoc s.io.trace (.request .claim)
    rw [ensureClaimed_of_unclaimed hc]
    constructor
    case ok => exact traceOk_snoc h.ok (h.unclaimed hc)
    all_goals simp only [setClaimed_eng, setClaimed_we, setClaimed_io, weClaim_eng, weClaim_we, weClaim_io, hview, observe]
    case unclaimed => nofun
    case pending => simp [hw]
    case program => exact h.program
    case divider => exact h.divider
    case progLoaded => exact h.progLoaded
    case clockKnown => exact h.clockKnown
    case fPio => exact h.fPio
    case waiting => exact h.waiting
    case synced => exact h.synced

/-- A state with no request outstanding has none waiting in its trace. -/
theorem traceCore_not_waiting {s : State} (h : TraceCore s) (hw : s.we.outstanding = none) :
    (viewOf s.io.trace).waiting = false := by rw [h.waiting, hw]; rfl

/-- WE_LOAD(PROG_SYNC, DIV_SYNC) and the WE_SYNC right after it (R167 (b)). -/
theorem traceCore_syncLoad {s : State} (h : TraceCore s) (hw : s.we.outstanding = none) (hc : s.eng.claimed = true) :
    TraceCore (syncLoadPhase s) := by
  have hclaimed : (viewOf s.io.trace).claimed = true := h.claimed.trans hc
  have hidle := traceCore_not_waiting h hw
  have hview1 := viewOf_snoc s.io.trace (.request (.load .sync divSync))
  have hview2 := viewOf_snoc (s.io.trace ++ [.request (.load .sync divSync)]) (.request .sync)
  have htrace : s.io.trace ++ [.request (.load .sync divSync), .request .sync] =
      s.io.trace ++ [.request (.load .sync divSync)] ++ [.request .sync] := by simp
  rw [hview1] at hview2
  rw [syncLoadPhase_state]
  constructor
  case ok =>
    rw [htrace]
    refine traceOk_snoc (traceOk_snoc h.ok ⟨hclaimed, hidle⟩) ?_
    rw [hview1]
    exact ⟨hclaimed, hidle, rfl⟩
  all_goals simp only [htrace, hview2, observe]
  case claimed => exact h.claimed
  case unclaimed => simp [hc]
  case program => trivial
  case divider =>
    intro p d hload
    cases hload
    rfl
  case progLoaded => nofun
  case clockKnown => exact h.clockKnown
  case fPio => exact h.fPio
  case waiting => rfl
  case pending => exact fun _ => trivial
  case synced => exact h.synced

/-- The observer's view once an accepted WE_SYNC answer came. -/
theorem observe_syncAnswer_ok {v : TraceView} {a : WeAnswer} {w : Word} {f : Rat} (hlast : v.last = some .sync)
    (ha : syncOutcome a = some (w, f)) :
    observe v (.answer a) = { v with waiting := false, ticks := some w, synced := true } := by
  simp only [observe, if_pos hlast, ha]

theorem observe_syncAnswer_err {v : TraceView} {a : WeAnswer} (hlast : v.last = some .sync)
    (ha : syncOutcome a = none) : observe v (.answer a) = { v with waiting := false, synced := false } := by
  simp only [observe, if_pos hlast, ha]

theorem observe_shiftAnswer {v : TraceView} {a : WeAnswer} (hlast : v.last ≠ some .sync) :
    observe v (.answer a) = { v with waiting := false } := by simp only [observe, if_neg hlast]

/-- The one answer of a waiting request is admitted (R163). -/
theorem traceOk_weWait {s : State} (h : TraceCore s) (hw : s.we.outstanding.isSome = true) :
    TraceOk (s.io.trace ++ [.answer s.nextAnswer]) :=
  traceOk_snoc h.ok (h.waiting.trans hw)

/-- The answer of WE_SYNC: a success makes the clock known with its tick count, a failure forgets it (R137, R138). -/
theorem traceCore_syncAnswer {s : State} (h : TraceCore s) (hw : s.we.outstanding = some .sync) :
    TraceCore (syncAnswerPhase s).1 := by
  have hlast : (viewOf s.io.trace).last = some .sync := (h.pending (by rw [hw]; rfl)).trans hw
  have hok := traceOk_weWait h (by rw [hw]; rfl)
  have hview := viewOf_snoc s.io.trace (.answer s.nextAnswer)
  cases ha : syncOutcome s.nextAnswer with
  | none =>
    rw [observe_syncAnswer_err hlast ha] at hview
    rw [syncAnswerPhase_err ha]
    constructor
    all_goals simp only [clearClock_eng, clearClock_we, clearClock_io, weWait_eng, weWait_we, weWait_io, hview]
    case ok => exact hok
    case claimed => exact h.claimed
    case unclaimed => exact h.unclaimed
    case program => exact h.program
    case divider => exact h.divider
    case progLoaded => exact h.progLoaded
    case clockKnown => nofun
    case fPio => exact h.fPio
    case waiting => rfl
    case pending => nofun
    case synced => nofun
  | some p =>
    obtain ⟨w, f⟩ := p
    obtain ⟨-, hf⟩ := syncOutcome_some_frequency ha
    rw [observe_syncAnswer_ok hlast ha] at hview
    rw [syncAnswerPhase_ok ha]
    constructor
    all_goals simp only [storeSync_eng, storeSync_we, storeSync_io, weWait_eng, weWait_we, weWait_io, hview]
    case ok => exact hok
    case claimed => exact h.claimed
    case unclaimed => exact h.unclaimed
    case program => exact h.program
    case divider => exact h.divider
    case progLoaded => exact h.progLoaded
    case clockKnown => exact fun _ => trivial
    case fPio => exact hf
    case waiting => rfl
    case pending => nofun
    case synced => exact fun _ => rfl

/-- PROG_TXN is loaded with the divider of the last measurement (R167 (c)). -/
theorem traceCore_txnLoad {s : State} (h : TraceCore s) (hw : s.we.outstanding = none) (hc : s.eng.claimed = true)
    (hk : s.eng.clockKnown = true) : TraceCore (txnLoadPhase s) := by
  rw [txnLoadPhase]
  split
  · exact h
  · have hmeasured : ∃ w, (viewOf s.io.trace).ticks = some w ∧
        clockDivider s.eng.fPio = clockDivider (syncFrequency w.toNat) := by
      obtain ⟨w, hticks⟩ := Option.isSome_iff_exists.mp (h.synced (h.clockKnown hk))
      exact ⟨w, hticks, by rw [h.fPio, hticks]⟩
    have hview := viewOf_snoc s.io.trace (.request (.load .txn (clockDivider s.eng.fPio)))
    constructor
    case ok => exact traceOk_snoc h.ok ⟨h.claimed.trans hc, traceCore_not_waiting h hw, hmeasured⟩
    all_goals
      simp only [setProgLoaded_eng, setProgLoaded_we, setProgLoaded_io, weLoad_eng, weLoad_we, weLoad_io, hview, observe]
    case claimed => exact h.claimed
    case unclaimed => simp [hc]
    case program => rfl
    case divider =>
      intro p d hload
      cases hload
      rfl
    case progLoaded => simp
    case clockKnown => exact h.clockKnown
    case fPio => exact h.fPio
    case waiting => exact h.waiting
    case pending => simp [hw]
    case synced => exact h.synced

/-- WE_SHIFT runs on a fresh PROG_TXN after a successful WE_SYNC (R167 (c) to (e)). -/
theorem traceCore_shift {s : State} (h : TraceCore s) (hw : s.we.outstanding = none) (hc : s.eng.claimed = true)
    (hk : s.eng.clockKnown = true) (hp : s.eng.progLoaded = true) : TraceCore (shiftPhase s) := by
  obtain ⟨hprogram, hfresh⟩ := h.progLoaded hp
  have hloaded : ∃ d, (viewOf s.io.trace).loaded = some (.txn, d) := by
    obtain ⟨⟨p, d⟩, hload, rfl⟩ := Option.map_eq_some_iff.mp (h.program.trans hprogram)
    exact ⟨d, hload⟩
  have hview := viewOf_snoc s.io.trace (.request (.shift s.eng.txWord s.eng.txBits s.eng.rxBits))
  rw [shiftPhase]
  constructor
  case ok =>
    exact traceOk_snoc h.ok ⟨h.claimed.trans hc, traceCore_not_waiting h hw, hloaded, hfresh, h.clockKnown hk⟩
  all_goals simp only [weIssue_eng, weIssue_we, weIssue_io, hview, observe]
  case claimed => exact h.claimed
  case unclaimed => simp [hc]
  case program => exact h.program
  case divider => exact h.divider
  case progLoaded => exact h.progLoaded
  case clockKnown => exact h.clockKnown
  case fPio => exact h.fPio
  case waiting => rfl
  case pending => exact fun _ => trivial
  case synced => exact h.synced

/-- The guarantees survive the end of a wait for a shift. -/
theorem traceCore_shiftWait {s : State} (h : TraceCore s) {tx : Word} {nt nr : BitVec 6}
    (hw : s.we.outstanding = some (.shift tx nt nr)) : TraceCore s.weWait.2 := by
  have hlast : (viewOf s.io.trace).last ≠ some .sync := by
    rw [h.pending (by rw [hw]; rfl), hw]
    nofun
  have hview := viewOf_snoc s.io.trace (.answer s.nextAnswer)
  rw [observe_shiftAnswer hlast] at hview
  constructor
  all_goals simp only [weWait_eng, weWait_we, weWait_io, hview]
  case ok => exact traceOk_weWait h (by rw [hw]; rfl)
  case claimed => exact h.claimed
  case unclaimed => exact h.unclaimed
  case program => exact h.program
  case divider => exact h.divider
  case progLoaded => exact h.progLoaded
  case clockKnown => exact h.clockKnown
  case fPio => exact h.fPio
  case waiting => rfl
  case pending => nofun
  case synced => exact h.synced

/-- Clearing flags keeps the guarantees: they bind a set flag only. -/
theorem traceCore_clearClock {s : State} (h : TraceCore s) : TraceCore s.clearClock :=
  { h with clockKnown := nofun }

theorem traceCore_unload {s : State} (h : TraceCore s) : TraceCore (s.setProgLoaded false) :=
  { h with progLoaded := nofun }

theorem traceCore_shiftAnswer {s : State} (h : TraceCore s) {tx : Word} {nt nr : BitVec 6}
    (hw : s.we.outstanding = some (.shift tx nt nr)) : TraceCore (shiftAnswerPhase s).1 := by
  have hwait := traceCore_shiftWait h hw
  cases ha : s.nextAnswer with
  | done w =>
    rw [shiftAnswerPhase_done ha]
    exact traceCore_sameEngine hwait ⟨rfl, rfl, rfl, rfl, rfl, rfl⟩
  | timeout =>
    rw [shiftAnswerPhase_timeout ha]
    exact traceCore_clearClock (traceCore_unload hwait)

theorem traceCore_phase {s t : State} (h : TraceCore s) (hphase : Phase s t) : TraceCore t := by
  cases hphase with
  | claim hw => exact traceCore_claim h hw
  | syncLoad hw hc => exact traceCore_syncLoad h hw hc
  | syncAnswer hw _ => exact traceCore_syncAnswer h hw
  | txnLoad hw hc hk => exact traceCore_txnLoad h hw hc hk
  | shift hw hc hk hp => exact traceCore_shift h hw hc hk hp
  | shiftAnswer hw => exact traceCore_shiftAnswer h hw
  | clearClock => exact traceCore_clearClock h
  | elsewhere hs => exact traceCore_sameEngine h hs

/-- Settles O57: a step is a chain of phases, each of which issues only what R167 admits and keeps the registers in
agreement with the observer's view. -/
theorem traceGuaranteesKept : Obligations.TraceGuaranteesKept := by
  intro s t hs h
  obtain ⟨hcore, hpos⟩ := (traceInv_iff s).mp hs
  obtain ⟨hphases, hpos'⟩ := step_phases hpos h
  exact (traceInv_iff t).mpr ⟨phases_keep (fun _ _ => traceCore_phase) hphases hcore, hpos'⟩

/-! After reset -/

theorem positionInv_reset : positionInv State.reset := (positionInv_idle reset_seq).mpr rfl

theorem engineCore_reset : EngineCore State.reset :=
  ⟨nofun, nofun, nofun, .inl reset_fPio⟩

theorem traceOk_nil : TraceOk [] := by
  intro before e after h
  cases before <;> cases h

theorem traceCore_reset : TraceCore State.reset where
  ok := traceOk_nil
  claimed := rfl
  unclaimed _ := rfl
  program := rfl
  divider := nofun
  progLoaded := nofun
  clockKnown := nofun
  fPio := rfl
  waiting := rfl
  pending := nofun
  synced := nofun

/-- Settles O56: every flag is clear, the trace is empty and no request is outstanding. -/
theorem invariantsAtReset : Obligations.InvariantsAtReset :=
  ⟨(engineInv_iff _).mpr ⟨engineCore_reset, positionInv_reset⟩, (traceInv_iff _).mpr ⟨traceCore_reset, positionInv_reset⟩⟩

end Sys2Proof.Proofs
end

section
/-! PROOFS. The sizes of the frame buffers and of the options image (spec/10_state.md R31, R34), kept by every step. -/

namespace Sys2Proof.Proofs

open Sys2Proof.Machine Sys2Proof.Laws

/-- The sizes speak of the dispatcher and the options only. -/
theorem memory_wf_of_disp {s t : State} (hs : Memory.wf s) (hd : t.disp = s.disp) (ho : t.options = s.options) :
    Memory.wf t := (memory_wf_congr (congrArg _ hd) (congrArg _ hd) ho).mpr hs

theorem memory_wf_of_frame {s t : State} (hs : Memory.wf s) (h : EngineFrame s t) : Memory.wf t :=
  memory_wf_of_disp hs h.disp h.options

theorem memory_wf_of_loopFrame {s t : State} (hs : Memory.wf s) (h : LoopFrame s t) : Memory.wf t :=
  (memory_wf_congr h.cmdFrame h.rspFrame h.options).mpr hs

/-! The length of a response -/

/-- A READ_MEM that passes its checks asks for no more than the response holds beside its status byte (R260). -/
theorem memChecks_read_ok_le {mode : Byte} {n avail : Nat} (h : memChecks .read mode n avail = .ok ()) :
    n + 1 ≤ maxResponseSize := by
  unfold memChecks at h
  split_ifs at h with _ _ hfits
  exact Nat.le_of_not_lt fun hlong => hfits ⟨rfl, Nat.add_comm n 1 ▸ hlong⟩

/-- READ_MEM aside, a payload has at most seven bytes. -/
theorem payloadLenOf_le {i : Instr} (h : ∀ mode count addr, i ≠ .readMem mode count addr) : payloadLenOf i ≤ 7 := by
  unfold payloadLenOf
  split
  · next mode count addr => exact absurd rfl (h mode count addr)
  · split
    · exact hostOp_payloadLen_le _
    · exact Nat.zero_le 7

theorem payloadLenOf_fits {i : Instr} (h : checkOf i = .ok ()) : payloadLenOf i + 1 ≤ maxResponseSize := by
  by_cases hread : ∃ mode count addr, i = .readMem mode count addr
  · obtain ⟨mode, count, addr, rfl⟩ := hread
    exact memChecks_read_ok_le (n := count.toNat) h
  · push Not at hread
    exact (Nat.succ_le_succ (payloadLenOf_le hread)).trans (by decide)

/-- Every response fits its buffer: a READ_MEM too long for it is refused without a payload (R259). -/
theorem respPayloadLen_fits (i : Instr) : respPayloadLen i + 1 ≤ maxResponseSize := by
  cases hcheck : checkOf i with
  | ok _ => exact respPayloadLen_of_ok hcheck ▸ payloadLenOf_fits hcheck
  | err S =>
    unfold respPayloadLen
    split
    · decide
    · next hread =>
      exact (Nat.succ_le_succ (payloadLenOf_le fun _ _ _ hi => hread _ _ _ _ hi hcheck)).trans (by decide)

/-! An instruction -/

theorem memory_wf_immediate {i : Instr} {s t : State} (hs : Memory.wf s) (h : ImmediateChange i s t) : Memory.wf t := by
  obtain ⟨hcmd, hrsp, hoptions⟩ := hs
  exact ⟨by rwa [h.disp], by rwa [h.disp], h.optionsLength hoptions⟩

/-- An answer keeps the sizes when its payload, of either outcome, fits. -/
theorem memory_wf_answer {α : Type} {n : Nat} {payload : α → List Byte} {t : State} {r : Reply α} (ht : Memory.wf t)
    (hn : n + 1 ≤ maxResponseSize) (hlen : ∀ v, r = .ok v → (payload v).length = n) :
    Memory.wf (answer n payload (t, r)) := by
  cases r with
  | ok v => exact respond_memory_wf ht .ok (hlen v rfl ▸ hn)
  | err S => exact respondErr_memory_wf ht S hn

theorem memory_wf_host {i : Instr} {s t : State} (hs : Memory.wf s) (h : HostForm i s t) : Memory.wf t := by
  cases h with
  | refused _ => exact respondErr_memory_wf hs _ (respPayloadLen_fits i)
  | immediate hcheck hchange hlen =>
    exact respond_memory_wf (memory_wf_immediate hs hchange) .ok (hlen ▸ payloadLenOf_fits hcheck)
  | connect _ =>
    rcases connectWith_cases s with ⟨w, f, _, h⟩ | ⟨_, h⟩ <;> rw [h]
    · exact respond_memory_wf (memory_wf_of_frame hs (engineFrame_afterMeasure w f s)) .ok (by decide)
    · exact respondErr_memory_wf (memory_wf_of_frame hs (engineFrame_afterSyncFailure s)) .syncTimeout (by decide)
  | calls hcheck hclose hlen =>
    have hframe := loopFrame_closing (engineFrame_runCalls (callsOf i) s) hclose
    exact memory_wf_answer (memory_wf_of_loopFrame hs hframe) (payloadLenOf_fits hcheck) hlen

theorem memory_wf_exec {i : Instr} {s t : State} (hs : Memory.wf s) (h : exec i s = .next t) : Memory.wf t := by
  rcases bdm_or_host i with ⟨o, hb, _⟩ | ⟨o, _, hh⟩
  · rw [exec_bdm hb] at h
    cases h
    exact memory_wf_of_disp (memory_wf_of_frame hs (engineFrame_bdmRun o (argsOf i) s)) rfl rfl
  · exact memory_wf_host hs (exec_hostForm hh h)

/-! A step -/

theorem memory_wf_taken {s u : State} (hs : Memory.wf s) (h : Taken s u) : Memory.wf u := by
  cases h with
  | plain rest => exact hs
  | frame rest bytes => exact recordFrame_memory_wf (s := withInbox rest s) hs bytes

theorem memory_wf_idleStep {s t : State} (hs : Memory.wf s) (h : IdleStep s t) : Memory.wf t := by
  cases h with
  | waits => exact hs
  | runs hu hx => exact memory_wf_exec (memory_wf_taken hs hu) hx
  | answersFrame hu S hn =>
    exact respondErr_memory_wf (memory_wf_taken hs hu) S ((Nat.succ_le_succ hn).trans (by decide))
  | answersWord hu r => exact memory_wf_of_disp (memory_wf_taken hs hu) rfl rfl
  | startsSynchronize hu => exact memory_wf_of_disp (memory_wf_taken hs hu) rfl rfl
  | startsTransaction hu op P nt nr => exact memory_wf_of_disp (memory_wf_taken hs hu) rfl rfl

theorem memory_wf_weWait {s : State} (hs : Memory.wf s) : Memory.wf s.weWait.2 := memory_wf_of_frame hs (engineFrame_weWait s)

theorem memory_wf_finish {s : State} (hs : Memory.wf s) (r : Reply EngineResult) : Memory.wf (finish s r) :=
  memory_wf_of_disp hs rfl rfl

theorem memory_wf_syncAnswer {s : State} (hs : Memory.wf s) : Memory.wf (syncAnswerPhase s).1 := by
  cases ha : syncOutcome s.nextAnswer with
  | none =>
    rw [syncAnswerPhase_err ha]
    exact memory_wf_of_disp (memory_wf_weWait hs) rfl rfl
  | some p =>
    rw [syncAnswerPhase_ok (w := p.1) (f := p.2) ha]
    exact memory_wf_of_disp (memory_wf_weWait hs) rfl rfl

theorem memory_wf_shiftAnswer {s : State} (hs : Memory.wf s) : Memory.wf (shiftAnswerPhase s).1 := by
  cases ha : s.nextAnswer with
  | done w =>
    rw [shiftAnswerPhase_done ha]
    exact memory_wf_of_disp (memory_wf_weWait hs) rfl rfl
  | timeout =>
    rw [shiftAnswerPhase_timeout ha]
    exact memory_wf_of_disp (memory_wf_weWait hs) rfl rfl

/-- No transition of the sequencer touches the buffers or the options. -/
theorem memory_wf_sequencerStep {s : State} (hs : Memory.wf s) : Memory.wf (sequencerStep s) := by
  cases hseq : s.eng.seq with
  | idle => simpa only [sequencerStep, hseq] using hs
  | claim =>
    rw [sequencerStep_claim hseq]
    exact memory_wf_of_disp (memory_wf_of_frame hs (engineFrame_ensureClaimed s)) rfl rfl
  | syncLoad =>
    rw [sequencerStep_syncLoad hseq]
    exact memory_wf_of_disp hs rfl rfl
  | syncWait =>
    have hphase := memory_wf_syncAnswer hs
    rcases ha : syncAnswerPhase s with ⟨u, f | S⟩ <;> rw [ha] at hphase
    · cases hcont : s.eng.cont with
      | ret =>
        rw [sequencerStep_syncWait_ret hseq ha hcont]
        exact memory_wf_finish hphase _
      | txn =>
        rw [sequencerStep_syncWait_txn hseq ha hcont]
        exact hphase
    · rw [sequencerStep_syncWait_err hseq ha]
      exact memory_wf_finish hphase _
  | txnLoad =>
    rw [sequencerStep_txnLoad hseq, txnLoadPhase_state]
    exact hs
  | shift =>
    rw [sequencerStep_shift hseq]
    exact memory_wf_of_disp hs rfl rfl
  | shiftWait =>
    rw [sequencerStep_shiftWait hseq]
    exact memory_wf_finish (memory_wf_shiftAnswer hs) _

/-- Settles O58: a step takes a frame of at most the buffer's size, or answers with a payload that fits, or leaves the
buffers and the options alone; SET_OPTIONS keeps the image's length. -/
theorem buffersKeepSizes : Obligations.BuffersKeepSizes := by
  intro s t hs h
  by_cases hidle : s.eng.seq = .idle
  · exact memory_wf_idleStep hs (step_idleStep hidle h)
  · rw [step_busy hidle] at h
    cases h
    exact memory_wf_sequencerStep hs

end Sys2Proof.Proofs
end
